-- ==== Sys2Proof/Word.lean ====
section
/-! DEFINITION. The widths the spec uses (00_scope.md R7, R10): bytes of the image, image addresses, 16-bit data
registers, 32-bit command and response words. All values are unsigned. -/

namespace Sys2Proof

/-- One image byte (`BYTE_BITS` = 8, 00_scope.md R7). -/
abbrev Byte := BitVec 8

/-- An image address (`IMG_ADDR_BITS` = 8): every value names a byte that exists (20_memory.md R50). -/
abbrev Addr := BitVec 8

/-- A 16-bit value: a running CRC, a data register, a `VALUE` field (`CRC_BITS` = 16). -/
abbrev Half := BitVec 16

/-- A command word or a response word (`CMD_BITS` = `RESP_BITS` = 32). -/
abbrev Word := BitVec 32

end Sys2Proof
end

