-- ==== Sys2Proof/Syntax.lean ====
section
/-! DEFINITION. The command set `SPDCRC16-v1` as syntax: one constructor per row of spec/opcode_table.json
(30_encoding.md R88), each operand exactly as wide as its field (R81 to R87). -/

namespace Sys2Proof

/-- A command of the engine, the spec's "instruction" (00_scope.md, glossary). -/
inductive Instr where
  /-- `CLR` (41_crc16_datapath.md R138). -/
  | clr
  /-- `UPD imm8` (41_crc16_datapath.md R140). -/
  | upd (imm8 : Byte)
  /-- `SPAN start, len` (41_crc16_datapath.md R142). -/
  | span (start : Addr) (len : BitVec 9)
  /-- `CHK` (42_spd_check_and_fix.md R166). -/
  | chk
  /-- `FIX` (42_spd_check_and_fix.md R170). -/
  | fix
  /-- `WRB addr, data` (40_image_and_register_access.md R112). -/
  | wrb (addr : Addr) (data : Byte)
  /-- `RDB addr` (40_image_and_register_access.md R116). -/
  | rdb (addr : Addr)
  /-- `RDR reg` (40_image_and_register_access.md R120). -/
  | rdr (reg : BitVec 4)
deriving DecidableEq, Repr

end Sys2Proof
end

