-- ==== Sys2Proof/WellFormed.lean ====
section
/-! DEFINITION. What a well-formed command word is, by the opcode table's match and mask (30_encoding.md R88), and which
legal commands pass the operand tests of phase 2 (R93). Every term of `Instr` fits its encoding, since each operand is as
wide as its field; an operand of the ASSEMBLER that does not fit is checked in Sys2Proof/Machine/Assembler.lean. -/

namespace Sys2Proof

/-- One row of the opcode map (30_encoding.md R88). -/
structure OpRow where
  /-- the opcode, bits 31 to 28 -/
  op : BitVec 4
  /-- the spec's `match` -/
  pat : Word
  /-- the spec's `mask` -/
  mask : Word
deriving DecidableEq, Repr

/-- A row selects the words with `(w AND mask) == match` (30_encoding.md R88). -/
def OpRow.selects (r : OpRow) (w : Word) : Bool := (w &&& r.mask) == r.pat

/-- The opcode map (30_encoding.md R88; spec/opcode_table.json): CLR, UPD, SPAN, CHK, FIX, WRB, RDB, RDR. -/
def opRows : List OpRow :=
  [⟨0x1#4, 0x10000000#32, 0xFFFFFFFF#32⟩, ⟨0x2#4, 0x20000000#32, 0xFFFFFF00#32⟩,
   ⟨0x3#4, 0x30000000#32, 0xFF00FE00#32⟩, ⟨0x4#4, 0x40000000#32, 0xFFFFFFFF#32⟩,
   ⟨0x5#4, 0x50000000#32, 0xFFFFFFFF#32⟩, ⟨0x6#4, 0x60000000#32, 0xFFFF0000#32⟩,
   ⟨0x7#4, 0x70000000#32, 0xFFFF00FF#32⟩, ⟨0x8#4, 0x80000000#32, 0xFFFFFFF0#32⟩]

/-- A command word is well formed when a row of the opcode map selects it; any other word is illegal
(30_encoding.md R89, R90, R91). -/
def wordWellFormed (w : Word) : Bool := opRows.any (·.selects w)

/-- The opcode of a command (30_encoding.md R88). -/
def Instr.opcode : Instr → BitVec 4
  | .clr => 0x1#4
  | .upd _ => 0x2#4
  | .span _ _ => 0x3#4
  | .chk => 0x4#4
  | .fix => 0x5#4
  | .wrb _ _ => 0x6#4
  | .rdb _ => 0x7#4
  | .rdr _ => 0x8#4

/-- The operand conditions of phase 2 (30_encoding.md R93): a `SPAN` inside the image, an `RDR` of a register that exists.
A legal command that fails it is refused; it is not an illegal encoding. -/
def Instr.operandsAccepted : Instr → Bool
  | .span start len => decide (start.toNat + len.toNat ≤ 256)
  | .rdr reg => decide (reg.toNat ≤ 4)
  | .clr => true
  | .upd _ => true
  | .chk => true
  | .fix => true
  | .wrb _ _ => true
  | .rdb _ => true

end Sys2Proof
end

