-- ==== Sys2Proof/Decode.lean ====
section
/-! DEFINITION. The decoder (30_encoding.md R94), total on 32-bit words and rejecting by name, and after it the encoder
(R81 to R88). A command word is handed over whole, so there is no byte order (20_memory.md R54; log entry 15). -/

namespace Sys2Proof

/-- Why a word is illegal. Both reasons are refused with the one cause `ILLEGAL_CMD` (60_exceptions.md R193). -/
inductive Illegal where
  /-- opcode 0x0 or 0x9 to 0xF (30_encoding.md R89) -/
  | reservedOpcode (op : BitVec 4)
  /-- opcode 0x1 to 0x8 with a must-be-zero bit set (30_encoding.md R90) -/
  | mustBeZeroSet (op : BitVec 4)
deriving DecidableEq, Repr

/-- `w[hi:lo]` (00_scope.md R10). -/
def slice (w : Word) (hi lo : Nat) : BitVec (hi - lo + 1) := w.extractLsb hi lo

/-- `op = w[31:28]` (30_encoding.md R80). -/
def fieldOp (w : Word) : BitVec 4 := slice w 31 28

/-- `imm8 = w[7:0]` (30_encoding.md R82, R87). -/
def fieldImm8 (w : Word) : Byte := slice w 7 0

/-- `data = w[7:0]` (30_encoding.md R84, R87). -/
def fieldData (w : Word) : Byte := slice w 7 0

/-- `addr = w[15:8]` (30_encoding.md R84, R85, R87). -/
def fieldAddr (w : Word) : Addr := slice w 15 8

/-- `start = w[23:16]` (30_encoding.md R83, R87). -/
def fieldStart (w : Word) : Addr := slice w 23 16

/-- `len = w[8:0]` (30_encoding.md R83, R87). -/
def fieldLen (w : Word) : BitVec 9 := slice w 8 0

/-- `reg = w[3:0]` (30_encoding.md R86, R87). -/
def fieldReg (w : Word) : BitVec 4 := slice w 3 0

/-- The must-be-zero bits of a word, gathered by its opcode's format (30_encoding.md R81 to R86), are all 0. -/
def mustBeZeroClear (w : Word) : Bool :=
  match fieldOp w with
  | 0x1#4 => slice w 27 0 == 0
  | 0x2#4 => slice w 27 8 == 0
  | 0x3#4 => slice w 27 24 == 0 && slice w 15 9 == 0
  | 0x4#4 => slice w 27 0 == 0
  | 0x5#4 => slice w 27 0 == 0
  | 0x6#4 => slice w 27 16 == 0
  | 0x7#4 => slice w 27 16 == 0 && slice w 7 0 == 0
  | 0x8#4 => slice w 27 4 == 0
  | _ => true

/-- The command an opcode selects, with its operands, before the must-be-zero bits are looked at
(30_encoding.md R88, R94). -/
def selectByOpcode (w : Word) : Except Illegal Instr :=
  match fieldOp w with
  | 0x1#4 => .ok .clr
  | 0x2#4 => .ok (.upd (fieldImm8 w))
  | 0x3#4 => .ok (.span (fieldStart w) (fieldLen w))
  | 0x4#4 => .ok .chk
  | 0x5#4 => .ok .fix
  | 0x6#4 => .ok (.wrb (fieldAddr w) (fieldData w))
  | 0x7#4 => .ok (.rdb (fieldAddr w))
  | 0x8#4 => .ok (.rdr (fieldReg w))
  | op => .error (.reservedOpcode op)

/-- The decoder (30_encoding.md R94). -/
def decode (w : Word) : Except Illegal Instr :=
  match selectByOpcode w with
  | .ok i => if mustBeZeroClear w then .ok i else .error (.mustBeZeroSet (fieldOp w))
  | .error why => .error why

/-- The encoder: the operands in their fields, zeros elsewhere (30_encoding.md R81 to R88, R95). -/
def encode : Instr → Word
  | .clr => 0x1#4 ++ 0#28
  | .upd imm8 => 0x2#4 ++ 0#20 ++ imm8
  | .span start len => 0x3#4 ++ 0#4 ++ start ++ 0#7 ++ len
  | .chk => 0x4#4 ++ 0#28
  | .fix => 0x5#4 ++ 0#28
  | .wrb addr data => 0x6#4 ++ 0#12 ++ addr ++ data
  | .rdb addr => 0x7#4 ++ 0#12 ++ addr ++ 0#8
  | .rdr reg => 0x8#4 ++ 0#24 ++ reg

/-- The word whose bits the opcode table numbers: bits at and above `nbits` are 0, and so are bits at and above 32,
which no command has (30_encoding.md R80). -/
def tableWord (nbits w : Nat) : Word := BitVec.ofNat 32 (w % 2 ^ nbits)

/-- What the decoder reads from a word given in the opcode table's bit numbering; `none` where it refuses, and for a number
that does not fit the 32 bits every command has. -/
def decodeTableWord (nbits w : Nat) : Option Instr :=
  if w % 2 ^ nbits < 2 ^ 32 then (decode (tableWord nbits w)).toOption else none

end Sys2Proof
end

