-- ==== Sys2Proof/Config.lean ====
section
/-! DEFINITION. The block's parameters (00_scope.md R7) and its one free value, `IMG_RESET`. -/

namespace Sys2Proof

/-- `IMG_SIZE`: the image has exactly 256 bytes. -/
abbrev Config.imgSize : Nat := 256

/-- `CRC_POLY`. -/
abbrev Config.crcPoly : Half := 0x1021#16

/-- `CRC_INIT`. -/
abbrev Config.crcInit : Half := 0x0000#16

/-- `CRC_ROUNDS_PER_BYTE`. -/
abbrev Config.crcRoundsPerByte : Nat := 8

/-- `COV_BYTE`: the address of the byte that holds the coverage bit. -/
abbrev Config.covByte : Addr := 0#8

/-- `COV_BIT`: the coverage bit's number in that byte. -/
abbrev Config.covBit : Nat := 7

/-- `SPAN_START`: the first byte the SPD CRC covers. -/
abbrev Config.spanStart : Nat := 0

/-- `SPAN_LEN_COV1`: bytes 0 to 116. -/
abbrev Config.spanLenCov1 : Nat := 117

/-- `SPAN_LEN_COV0`: bytes 0 to 125. -/
abbrev Config.spanLenCov0 : Nat := 126

/-- `CRC_LO_ADDR`. -/
abbrev Config.crcLoAddr : Addr := 126#8

/-- `CRC_HI_ADDR`. -/
abbrev Config.crcHiAddr : Addr := 127#8

/-- FREE VALUE (log entries 1 and 2): `IMG_RESET`, the image after reset (10_state.md R40, 92_eei_decisions.md D15,
93_implementation_defined.md U1). `Config.imgReset n a` is what address `a` holds after the `n`-th `reset()` until
something writes it. It has no body: no proof can see its value, and values for two resets are unrelated. -/
opaque Config.imgReset : Nat → Addr → Byte

end Sys2Proof
end

