-- ==== Sys2Proof/Machine/State.lean ====
section
/-! DEFINITION. The machine's state as plain data: everything 10_state.md R20 gives the engine, the host's list of actions
and of responses (R27; 70_reset_and_hazards.md R233), and the count of resets that indexes the free value. -/

namespace Sys2Proof.Machine

/-- The image: the bytes written since the last `reset()`, as address and byte, addresses strictly rising and below 256
(`Memory.wf`). An address that is not listed has not been written since then; it reads as the free value
`Config.imgReset` (log entries 1 and 4). -/
abbrev Memory := List Host.Cell

/-- The causes of a refusal (60_exceptions.md R192). Codes 4 to 15 are never produced, so they have no name. -/
inductive Cause where
  /-- raised by decoding, for every illegal word (60_exceptions.md R193) -/
  | illegalCmd
  /-- raised by `SPAN` when `start + len > 256` (60_exceptions.md R195) -/
  | spanRange
  /-- raised by `RDR` of register numbers 5 to 15 (60_exceptions.md R194) -/
  | badReg
deriving DecidableEq, Repr

/-- What the host can do to the engine (00_scope.md R9; 70_reset_and_hazards.md R232). -/
inductive HostAction where
  /-- `reset()` (70_reset_and_hazards.md R220) -/
  | reset
  /-- `command(w)` (00_scope.md R9) -/
  | command (w : Word)
deriving DecidableEq, Repr

/-- Reasons for the machine to stop with a fault: NONE. The block's only kind of fault is the refusal of 60_exceptions.md
R191, which is a defined step to a next state (R203), and the engine is never stuck (R202). Safe: nothing is hidden by a
stop (log entry 6). -/
inductive Fault where
deriving DecidableEq, Repr

/-- Reasons to give an instruction no meaning. -/
inductive Refusal where
  /-- An arm of `exec` whose instruction has no meaning yet. No arm raises it: every command has its meaning. Safe. -/
  | notModelled (mnemonic : String)
deriving DecidableEq, Repr

/-- The state (10_state.md R20), flat. -/
structure State where
  /-- `ACC`, register 0 (10_state.md R22) -/
  acc : Half
  /-- `CRC_STORED`, register 1 (10_state.md R23) -/
  crcStored : Half
  /-- `CRC_COMPUTED`, register 2 (10_state.md R24) -/
  crcComputed : Half
  /-- `VALID`, `STATUS` bit 0 (10_state.md R32) -/
  valid : Bool
  /-- `COV`, `STATUS` bit 1 (10_state.md R33) -/
  cov : Bool
  /-- `MISMATCH`, `STATUS` bit 2 (10_state.md R34) -/
  mismatch : Bool
  /-- `CHANGED`, `STATUS` bit 3 (10_state.md R35) -/
  changed : Bool
  /-- `ERR`, `STATUS` bit 4 (10_state.md R36) -/
  err : Bool
  /-- `CAUSE`, register 4, 4 bits (10_state.md R37; log entry 7) -/
  cause : BitVec 4
  /-- `IMG` (10_state.md R21) -/
  img : Memory
  /-- THE MODEL'S OWN (log entry 2): how many `reset()` have been taken; it picks the free value of a byte never written -/
  resets : Nat
  /-- the HOST's: the actions it will issue, first to last (10_state.md R27; log entry 3) -/
  pending : List HostAction
  /-- the HOST's: the responses it has got back, oldest first (70_reset_and_hazards.md R233; log entry 3) -/
  responses : List Word
deriving DecidableEq, Repr

/-- The machine right after reset (10_state.md R40): every register and flag 0, no byte of the image written, the host's
lists empty (log entries 1, 2, 3). -/
def State.reset : State :=
  { acc := 0x0000#16, crcStored := 0x0000#16, crcComputed := 0x0000#16,
    valid := false, cov := false, mismatch := false, changed := false, err := false,
    cause := 0x0#4, img := [], resets := 0, pending := [], responses := [] }

end Sys2Proof.Machine
end

