-- ==== Sys2Proof/Machine/Ops.lean ====
section
/-! DEFINITION. The named operations over the image, the registers and the response: the pseudocode primitives of
00_scope.md R11, the refusal of 60_exceptions.md R191 (the block's whole "trap entry"; it has no return, R200), the
host's `reset()` (70_reset_and_hazards.md R220), and the taking of the host's next action. -/

namespace Sys2Proof.Machine

/-! ## The image as a sorted list of cells -/

/-- The byte listed at a numeric address, if one is. -/
def Memory.lookup : Memory → Nat → Option Byte
  | [], _ => none
  | (b, v) :: rest, a => if b = a then some v else Memory.lookup rest a

/-- Lists `v` at `a`, keeping addresses strictly rising and each address once. -/
def Memory.insert (a : Nat) (v : Byte) : Memory → Memory
  | [] => [(a, v)]
  | (b, w) :: rest =>
    if a < b then (a, v) :: (b, w) :: rest
    else if a = b then (a, v) :: rest
    else (b, w) :: Memory.insert a v rest

/-- All listed addresses are at least `lo` and below the image's size, and rise strictly. -/
def Memory.risesFrom : Nat → Memory → Bool
  | _, [] => true
  | lo, (b, _) :: rest => decide (lo ≤ b) && decide (b < Config.imgSize) && Memory.risesFrom (b + 1) rest

/-- The canonical form of an image (log entry 4): addresses strictly rising, all of them addresses of the image
(10_state.md R21). -/
def Memory.wf (m : Memory) : Bool := Memory.risesFrom 0 m

/-- What an address that is not listed reads as: the free value `IMG_RESET` (93_implementation_defined.md U1;
log entry 1). -/
def State.unlistedByte (s : State) (a : Addr) : Byte := Config.imgReset s.resets a

/-- `MemRead(a, 1)` (00_scope.md R11): no side effect (20_memory.md R57). -/
def State.readByte (s : State) (a : Addr) : Byte := (Memory.lookup s.img a.toNat).getD (s.unlistedByte a)

/-- `MemWrite(a, 1, v)` (00_scope.md R11). -/
def State.writeByte (s : State) (a : Addr) (v : Byte) : State := { s with img := Memory.insert a.toNat v s.img }

/-- A byte has been written since the last `reset()` (70_reset_and_hazards.md R223). -/
def State.written (s : State) (a : Addr) : Bool := (Memory.lookup s.img a.toNat).isSome

/-- The address of byte `i` of a span: a natural sum, never wrapped (20_memory.md R59). The narrowing to 8 bits loses
nothing when the span is inside the image (log entry 17; `spanAddr_toNat`). -/
def spanAddr (start i : Nat) : Addr := BitVec.ofNat 8 (start + i)

/-- The `len` bytes of the image from `start`, in ascending address order (20_memory.md R52). -/
def State.spanBytes (s : State) (start len : Nat) : List Byte :=
  (List.range len).map fun i => s.readByte (spanAddr start i)

/-! ## The response -/

/-- A response word `{err, 0b000, cause, 0x00, value}` (30_encoding.md R96). -/
def responseWord (errNow : Bool) (causeNow : BitVec 4) (value : Half) : Word :=
  BitVec.ofBool errNow ++ 0#3 ++ causeNow ++ 0x00#8 ++ value

/-- The host gets a response word back (70_reset_and_hazards.md R232). -/
def State.giveResponse (s : State) (r : Word) : State := { s with responses := s.responses ++ [r] }

/-- `respond(v)`: the command completes (00_scope.md R11). -/
def State.respond (s : State) (value : Half) : State := s.giveResponse (responseWord false 0x0#4 value)

/-! ## The refusal -/

/-- The cause codes (60_exceptions.md R192). -/
def Cause.code : Cause → BitVec 4
  | .illegalCmd => 0x1#4
  | .spanRange => 0x2#4
  | .badReg => 0x3#4

/-- The register writes of a refusal: the first cause since reset is kept, `ERR` is sticky (60_exceptions.md R191). -/
def State.recordRefusal (s : State) (c : Cause) : State :=
  { s with cause := if s.err then s.cause else c.code, err := true }

/-- `raise Refuse(c)` (60_exceptions.md R191): `ERR`, `CAUSE`, the response, and nothing else. -/
def State.refuse (s : State) (c : Cause) : State := (s.recordRefusal c).giveResponse (responseWord true c.code 0x0000#16)

/-! ## Registers -/

/-- `ACC <- v` (10_state.md R22). -/
def State.setAcc (s : State) (v : Half) : State := { s with acc := v }

/-- `CRC_STORED <- stored`, `CRC_COMPUTED <- computed` (10_state.md R23, R24). -/
def State.setSnapshot (s : State) (stored computed : Half) : State :=
  { s with crcStored := stored, crcComputed := computed }

/-! ## The host's side -/

/-- `reset()` (70_reset_and_hazards.md R220): every register and flag 0, the image unspecified again, with contents that
need not equal those of any other reset (93_implementation_defined.md U1). The host's lists stay (log entry 13). -/
def State.hostReset (s : State) : State :=
  { State.reset with resets := s.resets + 1, pending := s.pending, responses := s.responses }

/-- The host has issued its next action: the position in its list moves on by one, whatever becomes of the command
(10_state.md R27). -/
def State.actionTaken (s : State) (rest : List HostAction) : State := { s with pending := rest }

/-- The host puts a command before all else it will issue (log entry 3). -/
def State.issueNext (s : State) (w : Word) : State := { s with pending := .command w :: s.pending }

end Sys2Proof.Machine
end

