-- ==== Sys2Proof/Machine/Flags.lean ====
section
/-! DEFINITION. The five flags: the view `STATUS` (10_state.md R31) and the flag writes of CHK and FIX
(42_spd_check_and_fix.md R166, R170). `ERR` is written by the refusal alone (Ops.lean). -/

namespace Sys2Proof.Machine

/-- `STATUS`: `{0b00000000000, ERR, CHANGED, MISMATCH, COV, VALID}` (10_state.md R31;
40_image_and_register_access.md R120). -/
def State.statusWord (s : State) : Half :=
  0#11 ++ BitVec.ofBool s.err ++ BitVec.ofBool s.changed ++ BitVec.ofBool s.mismatch ++ BitVec.ofBool s.cov
    ++ BitVec.ofBool s.valid

/-- `COV <- cov`, `MISMATCH <- mismatch`, `VALID <- 1`, the flags both CHK and FIX write (10_state.md R32 to R34). -/
def State.setCheckFlags (s : State) (cov mismatch : Bool) : State :=
  { s with cov := cov, mismatch := mismatch, valid := true }

/-- `CHANGED <- changed`, which FIX alone writes (10_state.md R35). -/
def State.setChanged (s : State) (changed : Bool) : State := { s with changed := changed }

/-- `zext_16` of one bit, the `VALUE` of CHK and FIX (30_encoding.md R97). -/
def flagValue (b : Bool) : Half := (BitVec.ofBool b).setWidth 16

end Sys2Proof.Machine
end

