-- ==== Sys2Proof/Machine/Operands.lean ====
section
/-! DEFINITION. The operand forms: the absolute byte address is the field itself (40_image_and_register_access.md R110), so
it needs no function; a register is named by number (10_state.md R30); the three values CHK and FIX derive from the image
(42_spd_check_and_fix.md R161 to R163). -/

namespace Sys2Proof.Machine

/-- The register with a given number, as RDR reads it; numbers 5 to 15 name none (10_state.md R30;
40_image_and_register_access.md R120). -/
def State.readReg (s : State) (reg : BitVec 4) : Option Half :=
  match reg with
  | 0x0#4 => some s.acc
  | 0x1#4 => some s.crcStored
  | 0x2#4 => some s.crcComputed
  | 0x3#4 => some s.statusWord
  | 0x4#4 => some (s.cause.setWidth 16)
  | _ => none

/-- `cov = IMG[0][7]` (42_spd_check_and_fix.md R161). -/
def State.coverage (s : State) : Bool := (s.readByte Config.covByte).getLsbD Config.covBit

/-- The span length that a coverage bit selects (42_spd_check_and_fix.md R161). -/
def spanLength (cov : Bool) : Nat := if cov then Config.spanLenCov1 else Config.spanLenCov0

/-- `stored = {IMG[127], IMG[126]}` (42_spd_check_and_fix.md R162; 20_memory.md R51). -/
def State.storedCrc (s : State) : Half := s.readByte Config.crcHiAddr ++ s.readByte Config.crcLoAddr

/-- `v[7:0]`, the byte that goes to the lower address (20_memory.md R51). -/
def lowByte (v : Half) : Byte := v.extractLsb 7 0

/-- `v[15:8]`, the byte that goes to the higher address (20_memory.md R51). -/
def highByte (v : Half) : Byte := v.extractLsb 15 8

/-- The two writes of a repair, low byte first (42_spd_check_and_fix.md R170; 20_memory.md R55, R78). -/
def State.storeCrc (s : State) (v : Half) : State :=
  (s.writeByte Config.crcLoAddr (lowByte v)).writeByte Config.crcHiAddr (highByte v)

/-- The repair of FIX: both bytes are written when `changed`, and none otherwise (42_spd_check_and_fix.md R170). -/
def State.repair (s : State) (changed : Bool) (v : Half) : State :=
  { s with img := if changed then (s.storeCrc v).img else s.img }

end Sys2Proof.Machine
end

