-- ==== Sys2Proof/Machine/Access.lean ====
section
/-! DEFINITION. The image and register access commands WRB, RDB, RDR (40_image_and_register_access.md R112, R116, R120). -/

namespace Sys2Proof.Machine

/-- WRB addr, data (40_image_and_register_access.md R112). -/
def execWrb (addr : Addr) (data : Byte) (s : State) : Host.Outcome State Fault Refusal :=
  .next ((s.writeByte addr data).respond 0x0000#16)

/-- RDB addr (40_image_and_register_access.md R116): the byte is zero-extended to 16 bits. -/
def execRdb (addr : Addr) (s : State) : Host.Outcome State Fault Refusal :=
  .next (s.respond ((s.readByte addr).setWidth 16))

/-- RDR reg (40_image_and_register_access.md R120): a number that names no register is refused with `BAD_REG`. -/
def execRdr (reg : BitVec 4) (s : State) : Host.Outcome State Fault Refusal :=
  match s.readReg reg with
  | some v => .next (s.respond v)
  | none => .next (s.refuse .badReg)

end Sys2Proof.Machine
end

