-- ==== Sys2Proof/Machine/Datapath.lean ====
section
/-! DEFINITION. The CRC16 function (41_crc16_datapath.md R131, R132, R134) and the commands CLR, UPD, SPAN (R138, R140,
R142). -/

namespace Sys2Proof.Machine

/-- `n` rounds: bit 15 is tested before the shift drops it, and a set bit adds the polynomial (41_crc16_datapath.md R131).
The test of a round decides how the next one is called, so evaluating it finishes each round in turn. -/
def crcRounds : Nat → Half → Half
  | 0, v => v
  | n + 1, v => if v.msb then crcRounds n ((v <<< 1) ^^^ Config.crcPoly) else crcRounds n (v <<< 1)

/-- One round, `crc_round` (41_crc16_datapath.md R131). -/
def crcRound (v : Half) : Half := crcRounds 1 v

/-- One byte: XOR into bits 15 to 8 first, then eight rounds (41_crc16_datapath.md R132). -/
def crcByte (acc : Half) (b : Byte) : Half := crcRounds Config.crcRoundsPerByte (acc ^^^ (b ++ 0x00#8))

/-- A sequence: the first `n` bytes, first to last, from initial value 0 (41_crc16_datapath.md R134). -/
def crc16 (seq : List Byte) (n : Nat) : Half := (seq.take n).foldl crcByte Config.crcInit

/-- `computed = crc16(IMG[0 .. n-1], n)`, `n` by the image's own coverage bit (42_spd_check_and_fix.md R163). -/
def State.computedCrc (s : State) : Half :=
  crc16 (s.spanBytes Config.spanStart (spanLength s.coverage)) (spanLength s.coverage)

/-- CLR (41_crc16_datapath.md R138). -/
def execClr (s : State) : Host.Outcome State Fault Refusal := .next ((s.setAcc Config.crcInit).respond Config.crcInit)

/-- UPD imm8 (41_crc16_datapath.md R140). -/
def execUpd (imm8 : Byte) (s : State) : Host.Outcome State Fault Refusal :=
  let v := crcByte s.acc imm8
  .next ((s.setAcc v).respond v)

/-- SPAN start, len (41_crc16_datapath.md R142): the range test is on natural numbers. -/
def execSpan (start : Addr) (len : BitVec 9) (s : State) : Host.Outcome State Fault Refusal :=
  if start.toNat + len.toNat > Config.imgSize then .next (s.refuse .spanRange)
  else
    let v := crc16 (s.spanBytes start.toNat len.toNat) len.toNat
    .next ((s.setAcc v).respond v)

end Sys2Proof.Machine
end

