-- ==== Sys2Proof/Machine/SpdCheck.lean ====
section
/-! DEFINITION. The DDR3 SPD commands CHK and FIX (42_spd_check_and_fix.md R166, R170). Both derive coverage, stored and
computed CRC from the image as it is when the command runs (R164) and look at nothing else (R165). -/

namespace Sys2Proof.Machine

/-- CHK (42_spd_check_and_fix.md R166). -/
def execChk (s : State) : Host.Outcome State Fault Refusal :=
  let stored := s.storedCrc
  let computed := s.computedCrc
  let mismatch := stored != computed
  .next ((((s.setAcc computed).setSnapshot stored computed).setCheckFlags s.coverage mismatch).respond (flagValue mismatch))

/-- FIX (42_spd_check_and_fix.md R170): bytes 126 and 127 are written, both, only when the two CRCs differ. -/
def execFix (s : State) : Host.Outcome State Fault Refusal :=
  let computed := s.computedCrc
  let changed := s.storedCrc != computed
  .next ((((((s.repair changed computed).setAcc computed).setSnapshot computed computed).setCheckFlags s.coverage false).setChanged changed).respond
    (flagValue changed))

end Sys2Proof.Machine
end

