-- ==== Sys2Proof/Machine/Dispatch.lean ====
section
/-! DEFINITION. The dispatch: one arm per command. -/

namespace Sys2Proof.Machine

def exec (i : Instr) (s : State) : Host.Outcome State Fault Refusal :=
  match i with
  | .clr => Sys2Proof.Machine.execClr s
  | .upd imm8 => Sys2Proof.Machine.execUpd imm8 s
  | .span start len => Sys2Proof.Machine.execSpan start len s
  | .chk => Sys2Proof.Machine.execChk s
  | .fix => Sys2Proof.Machine.execFix s
  | .wrb addr data => Sys2Proof.Machine.execWrb addr data s
  | .rdb addr => Sys2Proof.Machine.execRdb addr s
  | .rdr reg => Sys2Proof.Machine.execRdr reg s

end Sys2Proof.Machine
end

