-- ==== Sys2Proof/Machine/Command.lean ====
section
/-! DEFINITION. The host action `command(w)` (00_scope.md R9): the four phases of R12 in one atomic step. -/

namespace Sys2Proof.Machine

/-- `command(w)`: a legal word runs its command; an illegal word is refused with `ILLEGAL_CMD`, before any operand is looked
at (30_encoding.md R94; 60_exceptions.md R199). -/
def command (w : Word) (s : State) : Host.Outcome State Fault Refusal :=
  match decode w with
  | .ok i => exec i s
  | .error _ => .next (s.refuse .illegalCmd)

end Sys2Proof.Machine
end

