-- ==== Sys2Proof/Machine/Step.lean ====
section
/-! DEFINITION. One step: the host's next action, taken whole (00_scope.md R9; 20_memory.md R72). -/

namespace Sys2Proof.Machine

/-- One step. With no action pending the state does not change (70_reset_and_hazards.md R232; log entry 5). -/
def step (s : State) : Host.Outcome State Fault Refusal :=
  match s.pending with
  | [] => .next s
  | .reset :: rest => .next (s.actionTaken rest).hostReset
  | .command w :: rest => command w (s.actionTaken rest)

/-- `s` with the command word of the opcode table's numbering as the host's next action (log entries 3 and 15). -/
def State.withFetchWord (s : State) (nbits w : Nat) : State := s.issueNext (tableWord nbits w)

end Sys2Proof.Machine
end

