-- ==== Sys2Proof/Machine/Assembler.lean ====
section
/-! DEFINITION. The spec's assembler (30_encoding.md R100 to R105): lines with number operands, the check that each operand
fits its field, the expansion of the pseudo-instructions, and the text form of a line. What the spec leaves open of the text
form is in log entries 11 and 12. Nothing of this is part of the engine: it makes the command words a host issues. -/

namespace Sys2Proof.Machine

/-- An assembly line: a command (30_encoding.md R100), a pseudo-instruction (R102 to R105), or a raw word (R101). -/
inductive Line where
  | clr
  | upd (imm8 : Nat)
  | span (start len : Nat)
  | chk
  | fix
  | wrb (addr data : Nat)
  | rdb (addr : Nat)
  | rdr (reg : Nat)
  /-- `CRC16 len` (30_encoding.md R102) -/
  | crc16 (len : Nat)
  /-- `WRH addr, imm16` (30_encoding.md R103) -/
  | wrh (addr imm16 : Nat)
  /-- `LDIMG b0, ..., b255` (30_encoding.md R104) -/
  | ldimg (bytes : List Nat)
  /-- `DUMP` (30_encoding.md R104) -/
  | dump
  /-- `STR "text"`, the characters' codes (30_encoding.md R105) -/
  | str (codes : List Nat)
  /-- `.word w` (30_encoding.md R101) -/
  | word (w : Nat)
deriving DecidableEq, Repr

/-- Every operand fits its field; a line that does not pass is an assembly error (30_encoding.md R101, R103, R104, R105;
log entry 12). -/
def Line.fits : Line → Bool
  | .clr => true
  | .upd imm8 => decide (imm8 < 256)
  | .span start len => decide (start < 256) && decide (len < 512)
  | .chk => true
  | .fix => true
  | .wrb addr data => decide (addr < 256) && decide (data < 256)
  | .rdb addr => decide (addr < 256)
  | .rdr reg => decide (reg < 16)
  | .crc16 len => decide (len < 512)
  | .wrh addr imm16 => decide (addr ≤ 254) && decide (imm16 < 65536)
  | .ldimg bytes => decide (bytes.length = 256) && bytes.all (fun b => decide (b < 256))
  | .dump => true
  | .str codes => codes.all (fun c => decide (c < 128))
  | .word w => decide (w < 2 ^ 32)

/-- One `WRB` per byte, in ascending address order from `addr`. -/
def writesFrom (addr : Nat) : List Nat → List Instr
  | [] => []
  | b :: bs => .wrb (BitVec.ofNat 8 addr) (BitVec.ofNat 8 b) :: writesFrom (addr + 1) bs

/-- The commands of a line (30_encoding.md R102 to R105); a raw word is none. -/
def Line.instrs : Line → List Instr
  | .clr => [.clr]
  | .upd imm8 => [.upd (BitVec.ofNat 8 imm8)]
  | .span start len => [.span (BitVec.ofNat 8 start) (BitVec.ofNat 9 len)]
  | .chk => [.chk]
  | .fix => [.fix]
  | .wrb addr data => [.wrb (BitVec.ofNat 8 addr) (BitVec.ofNat 8 data)]
  | .rdb addr => [.rdb (BitVec.ofNat 8 addr)]
  | .rdr reg => [.rdr (BitVec.ofNat 4 reg)]
  | .crc16 len => [.span 0#8 (BitVec.ofNat 9 len)]
  | .wrh addr imm16 => writesFrom addr [imm16 % 256, imm16 / 256]
  | .ldimg bytes => writesFrom 0 bytes
  | .dump => (List.range 256).map fun a => .rdb (BitVec.ofNat 8 a)
  | .str codes => codes.map fun c => .upd (BitVec.ofNat 8 c)
  | .word _ => []

/-- The words a line stands for. -/
def Line.words : Line → List Word
  | .word w => [BitVec.ofNat 32 w]
  | l => l.instrs.map encode

/-- The assembler on one line: `none` is an assembly error (30_encoding.md R101). -/
def assemble (l : Line) : Option (List Word) := if l.fits then some l.words else none

/-! ## The text form (30_encoding.md R100, R101) -/

/-- The parts of a line's text. -/
inductive Token where
  | word (chars : List Char)
  | comma
  | charLit (code : Nat)
  | strLit (codes : List Nat)
deriving DecidableEq, Repr

/-- A blank between tokens (log entry 11). -/
def isBlank (c : Char) : Bool := c.toNat == 32 || c.toNat == 9 || c.toNat == 13

/-- A character of a mnemonic, a number or a register name (log entry 11). -/
def isWordChar (c : Char) : Bool :=
  (48 ≤ c.toNat && c.toNat ≤ 57) || (65 ≤ c.toNat && c.toNat ≤ 90) || (97 ≤ c.toNat && c.toNat ≤ 122)
    || c.toNat == 95 || c.toNat == 46

/-- A printable ASCII character (30_encoding.md R101; log entry 12). -/
def isPrintable (c : Char) : Bool := 32 ≤ c.toNat && c.toNat ≤ 126

/-- The single quote and the double quote. -/
def isQuote (c : Char) : Bool := c.toNat == 39

def isDoubleQuote (c : Char) : Bool := c.toNat == 34

/-- The tokens of one line; `fuel` is above the number of characters. A semicolon outside quotes starts a comment
(30_encoding.md R100; log entry 11). -/
def lexLine : Nat → List Char → Option (List Token)
  | 0, _ => none
  | _ + 1, [] => some []
  | fuel + 1, c :: rest =>
    if c = ';' then some []
    else if isBlank c then lexLine fuel rest
    else if c = ',' then (lexLine fuel rest).map (Token.comma :: ·)
    else if isQuote c then
      match rest with
      | x :: q :: more =>
        if isQuote q && isPrintable x then (lexLine fuel more).map (Token.charLit x.toNat :: ·) else none
      | _ => none
    else if isDoubleQuote c then
      match rest.dropWhile (fun x => !isDoubleQuote x) with
      | _ :: more =>
        (lexLine fuel more).map
          (Token.strLit ((rest.takeWhile (fun x => !isDoubleQuote x)).map Char.toNat) :: ·)
      | [] => none
    else if isWordChar c then
      (lexLine fuel (rest.dropWhile isWordChar)).map (Token.word (c :: rest.takeWhile isWordChar) :: ·)
    else none

/-- The value of a digit. -/
def digitValue (c : Char) : Option Nat :=
  if 48 ≤ c.toNat && c.toNat ≤ 57 then some (c.toNat - 48)
  else if 65 ≤ c.toNat && c.toNat ≤ 70 then some (c.toNat - 55)
  else if 97 ≤ c.toNat && c.toNat ≤ 102 then some (c.toNat - 87)
  else none

/-- Digits in a base, most significant first, onto a value already read. -/
def digitsValue (base : Nat) : Nat → List Char → Option Nat
  | acc, [] => some acc
  | acc, c :: cs =>
    match digitValue c with
    | some d => if d < base then digitsValue base (acc * base + d) cs else none
    | none => none

/-- A decimal number, or a hexadecimal number with prefix `0x` (30_encoding.md R101). -/
def numberValue : List Char → Option Nat
  | [] => none
  | [c] => digitsValue 10 0 [c]
  | [c, d] => digitsValue 10 0 [c, d]
  | c :: d :: e :: cs => if c = '0' && d = 'x' then digitsValue 16 0 (e :: cs) else digitsValue 10 0 (c :: d :: e :: cs)

/-- A register name standing for its number (30_encoding.md R101; 10_state.md R30). -/
def registerNumber (cs : List Char) : Option Nat :=
  if cs = ['A', 'C', 'C'] then some 0
  else if cs = ['C', 'R', 'C', '_', 'S', 'T', 'O', 'R', 'E', 'D'] then some 1
  else if cs = ['C', 'R', 'C', '_', 'C', 'O', 'M', 'P', 'U', 'T', 'E', 'D'] then some 2
  else if cs = ['S', 'T', 'A', 'T', 'U', 'S'] then some 3
  else if cs = ['C', 'A', 'U', 'S', 'E'] then some 4
  else none

/-- An operand as read. -/
inductive Operand where
  | number (n : Nat)
  | char (code : Nat)
  | register (n : Nat)
  | text (codes : List Nat)
deriving DecidableEq, Repr

/-- The operand a token is. -/
def operandOf : Token → Option Operand
  | .word cs =>
    match numberValue cs with
    | some n => some (.number n)
    | none => (registerNumber cs).map .register
  | .comma => none
  | .charLit code => some (.char code)
  | .strLit codes => some (.text codes)

/-- One or more operands separated by commas (30_encoding.md R100). -/
def operandsFrom : List Token → Option (List Operand)
  | [] => none
  | [t] => (operandOf t).map ([·])
  | t :: .comma :: more =>
    match operandOf t, operandsFrom more with
    | some o, some os => some (o :: os)
    | _, _ => none
  | _ => none

/-- The operands after a mnemonic: none at all, or a list. -/
def operandList : List Token → Option (List Operand)
  | [] => some []
  | ts => operandsFrom ts

/-- The numbers of a list of plain number operands. -/
def plainNumbers : List Operand → Option (List Nat)
  | [] => some []
  | .number n :: os => (plainNumbers os).map (n :: ·)
  | _ => none

/-- A data byte of UPD or WRB: a number or a character (30_encoding.md R101). -/
def dataValue : Operand → Option Nat
  | .number n => some n
  | .char code => some code
  | _ => none

/-- The line a mnemonic and its operands make (30_encoding.md R100 to R105). -/
def lineOf (m : List Char) (ops : List Operand) : Option Line :=
  if m = ['C', 'L', 'R'] then (match ops with | [] => some .clr | _ => none)
  else if m = ['U', 'P', 'D'] then (match ops with | [o] => (dataValue o).map .upd | _ => none)
  else if m = ['S', 'P', 'A', 'N'] then
    (match ops with | [.number a, .number n] => some (.span a n) | _ => none)
  else if m = ['C', 'H', 'K'] then (match ops with | [] => some .chk | _ => none)
  else if m = ['F', 'I', 'X'] then (match ops with | [] => some .fix | _ => none)
  else if m = ['W', 'R', 'B'] then
    (match ops with | [.number a, o] => (dataValue o).map (.wrb a) | _ => none)
  else if m = ['R', 'D', 'B'] then (match ops with | [.number a] => some (.rdb a) | _ => none)
  else if m = ['R', 'D', 'R'] then
    (match ops with | [.number r] => some (.rdr r) | [.register r] => some (.rdr r) | _ => none)
  else if m = ['C', 'R', 'C', '1', '6'] then (match ops with | [.number n] => some (.crc16 n) | _ => none)
  else if m = ['W', 'R', 'H'] then
    (match ops with | [.number a, .number v] => some (.wrh a v) | _ => none)
  else if m = ['L', 'D', 'I', 'M', 'G'] then (plainNumbers ops).map .ldimg
  else if m = ['D', 'U', 'M', 'P'] then (match ops with | [] => some .dump | _ => none)
  else if m = ['S', 'T', 'R'] then (match ops with | [.text codes] => some (.str codes) | _ => none)
  else if m = ['.', 'w', 'o', 'r', 'd'] then (match ops with | [.number w] => some (.word w) | _ => none)
  else none

/-- The words of one line of text: `none` is an assembly error, and an empty or comment line has no words. -/
def assembleTextLine (cs : List Char) : Option (List Word) :=
  match lexLine (cs.length + 1) cs with
  | none => none
  | some [] => some []
  | some (.word m :: ts) =>
    match operandList ts with
    | some ops =>
      match lineOf m ops with
      | some l => assemble l
      | none => none
    | none => none
  | some _ => none

/-- The lines of a text. -/
def textLines : List Char → List (List Char)
  | [] => [[]]
  | c :: cs =>
    match textLines cs with
    | [] => [[c]]
    | l :: ls => if c.toNat = 10 then [] :: l :: ls else (c :: l) :: ls

/-- The words of a list of lines, one command a line (30_encoding.md R100). -/
def assembleLines : List (List Char) → Option (List Word)
  | [] => some []
  | l :: ls =>
    match assembleTextLine l, assembleLines ls with
    | some ws, some more => some (ws ++ more)
    | _, _ => none

/-- The assembler on a whole text: the host's list of command words (10_state.md R27). -/
def assembleText (cs : List Char) : Option (List Word) := assembleLines (textLines cs)

end Sys2Proof.Machine
end

