-- ==== Sys2Proof/Safety.lean ====
section
/-! DEFINITION. The terms the claims use: runs, the laws of the state, what a refusal leaves, which bytes a command reads
and writes, and a command's result as the spec's tables give them. -/

namespace Sys2Proof.Machine

/-! ## Runs (70_reset_and_hazards.md R233) -/

/-- The run of a finite list of command words: `command` applied to each in order. -/
def runCommands : List Word → State → Host.Outcome State Fault Refusal
  | [], s => .next s
  | w :: ws, s =>
    match command w s with
    | .next t => runCommands ws t
    | .fault f => .fault f
    | .refused r => .refused r

/-! ## Laws of the state -/

/-- The laws of 10_state.md R41, (a) to (e). -/
abbrev State.Laws (s : State) : Prop :=
  s.mismatch = (s.crcStored != s.crcComputed)
  ∧ (s.valid = false →
      s.cov = false ∧ s.mismatch = false ∧ s.changed = false ∧ s.crcStored = 0#16 ∧ s.crcComputed = 0#16)
  ∧ (s.changed = true → s.valid = true)
  ∧ (s.err = false ↔ s.cause = 0#4)
  ∧ s.statusWord.extractLsb 15 5 = 0#11

/-- The invariant of a step: the laws, no reserved cause code (60_exceptions.md R192), and the image's canonical form. -/
abbrev State.Inv (s : State) : Prop := s.Laws ∧ s.cause.toNat ≤ 3 ∧ Memory.wf s.img = true

/-- The image is consistent: the stored CRC is the CRC of the span (42_spd_check_and_fix.md R171 b). -/
abbrev State.Consistent (s : State) : Prop := s.storedCrc = s.computedCrc

/-! ## Frames -/

/-- Every byte of the image reads as before. -/
abbrev SameImage (s t : State) : Prop := ∀ a : Addr, t.readByte a = s.readByte a

/-- The result registers and the flags of CHK and FIX are as before. -/
abbrev SameResults (s t : State) : Prop :=
  t.crcStored = s.crcStored ∧ t.crcComputed = s.crcComputed ∧ t.valid = s.valid ∧ t.cov = s.cov
  ∧ t.mismatch = s.mismatch ∧ t.changed = s.changed

/-- `ERR` and `CAUSE` are as before. -/
abbrev SameErrors (s t : State) : Prop := t.err = s.err ∧ t.cause = s.cause

/-- The host's list and the reset count are as before. -/
abbrev SameHostSide (s t : State) : Prop := t.pending = s.pending ∧ t.resets = s.resets

/-- Nothing of the machine changed but the host's list of responses. -/
abbrev SameMachine (s t : State) : Prop :=
  t.img = s.img ∧ SameImage s t ∧ t.acc = s.acc ∧ SameResults s t ∧ SameErrors s t ∧ SameHostSide s t

/-- Exactly one response came back, of a completed command, with this `VALUE` (30_encoding.md R96). -/
abbrev RespondsWith (s t : State) (value : Half) : Prop := t.responses = s.responses ++ [value.setWidth 32]

/-- What a refusal with cause code `c` leaves (60_exceptions.md R191): `ERR` set, the first cause kept, the response
`{0b1000, c, 0x00, 0x0000}`, and everything else as before. -/
abbrev RefusedTo (s t : State) (c : BitVec 4) : Prop :=
  t.err = true ∧ t.cause = (if s.err = true then s.cause else c)
  ∧ t.responses = s.responses ++ [0x8#4 ++ c ++ 0x00#8 ++ 0x0000#16]
  ∧ SameImage s t ∧ t.img = s.img ∧ t.acc = s.acc ∧ SameResults s t ∧ SameHostSide s t

/-! ## Commands as the spec's tables give them -/

/-- A command word is refused: it is illegal, or its operands are not accepted (30_encoding.md R93;
60_exceptions.md R193). -/
def commandRefused (w : Word) : Bool :=
  match decode w with
  | .ok i => !i.operandsAccepted
  | .error _ => true

/-- The cause code of a refused command's operands, 0 when they are accepted (60_exceptions.md R192, R194, R195). -/
def Instr.operandCause : Instr → BitVec 4
  | .span start len => if start.toNat + len.toNat ≤ 256 then 0x0#4 else 0x2#4
  | .rdr reg => if reg.toNat ≤ 4 then 0x0#4 else 0x3#4
  | .clr => 0x0#4
  | .upd _ => 0x0#4
  | .chk => 0x0#4
  | .fix => 0x0#4
  | .wrb _ _ => 0x0#4
  | .rdb _ => 0x0#4

/-- The cause code of a refusal of this word, 0 for a word that is not refused (60_exceptions.md R192, R199). -/
def refusalCode (w : Word) : BitVec 4 :=
  match decode w with
  | .ok i => Instr.operandCause i
  | .error _ => 0x1#4

/-- `VALUE` of a completed command, in terms of the state AFTER it (30_encoding.md R97). -/
def resultValue (i : Instr) (t : State) : Half :=
  match i with
  | .clr => t.acc
  | .upd _ => t.acc
  | .span _ _ => t.acc
  | .chk => if t.mismatch then 1#16 else 0#16
  | .fix => if t.changed then 1#16 else 0#16
  | .wrb _ _ => 0#16
  | .rdb addr => (t.readByte addr).setWidth 16
  | .rdr reg => (t.readReg reg).getD 0#16

/-- The `n` bytes of the image from `start`, lowest address first (20_memory.md R52). -/
def imageBytes (s : State) (start n : Nat) : List Byte := List.ofFn fun k : Fin n => s.readByte (BitVec.ofNat 8 (start + k))

/-- The addresses of the span of CHK and FIX (42_spd_check_and_fix.md R161). -/
def coveredAddrs (s : State) : List Addr := (List.range (spanLength s.coverage)).map (BitVec.ofNat 8)

/-- The image bytes a command reads (20_memory.md R56). -/
def bytesRead (i : Instr) (s : State) : List Addr :=
  match i with
  | .span start len =>
    if start.toNat + len.toNat ≤ 256 then (List.range len.toNat).map (spanAddr start.toNat) else []
  | .chk => 0#8 :: 126#8 :: 127#8 :: coveredAddrs s
  | .fix => 0#8 :: 126#8 :: 127#8 :: coveredAddrs s
  | .rdb addr => [addr]
  | .clr => []
  | .upd _ => []
  | .wrb _ _ => []
  | .rdr _ => []

/-- The image bytes a command writes (20_memory.md R56). -/
def bytesWritten (i : Instr) (s : State) : List Addr :=
  match i with
  | .wrb addr _ => [addr]
  | .fix => if s.storedCrc = s.computedCrc then [] else [126#8, 127#8]
  | .clr => []
  | .upd _ => []
  | .span _ _ => []
  | .chk => []
  | .rdb _ => []
  | .rdr _ => []

/-- The command reads only bytes that were written since the last `reset()`, so the rules give a defined result
(70_reset_and_hazards.md R223). -/
abbrev DefinedReads (i : Instr) (s : State) : Prop := ∀ a ∈ bytesRead i s, s.written a = true

/-- The host's first pending action is a command word that decodes to this command. -/
abbrev NextCommandIs (s : State) (i : Instr) : Prop :=
  ∃ w rest, s.pending = .command w :: rest ∧ decode w = .ok i

/-- The bytes a command absorbs into the accumulator (41_crc16_datapath.md R140). -/
def Instr.absorbs : Instr → List Byte
  | .upd imm8 => [imm8]
  | .clr => []
  | .span _ _ => []
  | .chk => []
  | .fix => []
  | .wrb _ _ => []
  | .rdb _ => []
  | .rdr _ => []

/-- The bytes the `UPD` commands of a list of words absorb, in order (41_crc16_datapath.md R141). -/
def absorbedBytes : List Word → List Byte
  | [] => []
  | w :: ws =>
    match decode w with
    | .ok i => Instr.absorbs i ++ absorbedBytes ws
    | .error _ => absorbedBytes ws

/-- The word is not CLR, SPAN, CHK or FIX, the commands that overwrite `ACC` other than by absorbing a byte
(41_crc16_datapath.md R141; 70_reset_and_hazards.md R228). -/
def keepsStream (w : Word) : Bool :=
  match decode w with
  | .ok i => decide (i.opcode ∉ [0x1#4, 0x3#4, 0x4#4, 0x5#4])
  | .error _ => true

/-- The word is neither CHK nor FIX (42_spd_check_and_fix.md R167). -/
def keepsSnapshot (w : Word) : Bool :=
  match decode w with
  | .ok i => decide (i ≠ .chk ∧ i ≠ .fix)
  | .error _ => true

/-- The command never writes this image byte: it is no WRB to it and, for bytes 126 and 127, no FIX (20_memory.md R56). -/
def Instr.keepsByte (addr : Addr) : Instr → Bool
  | .wrb a _ => a != addr
  | .fix => addr != 126#8 && addr != 127#8
  | .clr => true
  | .upd _ => true
  | .span _ _ => true
  | .chk => true
  | .rdb _ => true
  | .rdr _ => true

/-- The word is no command that writes this image byte (20_memory.md R57). -/
def keepsByte (addr : Addr) (w : Word) : Bool :=
  match decode w with
  | .ok i => Instr.keepsByte addr i
  | .error _ => true

end Sys2Proof.Machine
end

