-- ==== Sys2Proof/Certificates/Slice0/Obligations.lean ====
section
/-! DEFINITION. The statements for the provers, each from the rules of spec/ its comment names. Every statement about an
instruction's effect concludes that `exec` answers a next state. -/

open Sys2Proof Sys2Proof.Machine

/-! ## Encoding and decoding (30_encoding.md) -/

/-- R95. -/
def Obligations.DecodeEncodeRoundTrip : Prop :=
  (∀ i : Instr, decode (encode i) = .ok i)
  ∧ (∀ r ∈ opRows, slice r.mask 31 28 = 0xF#4)
  ∧ (∀ r ∈ opRows, ∀ q ∈ opRows, slice r.pat 31 28 = slice q.pat 31 28 → r = q)
  ∧ (∀ w : Word, ∀ r ∈ opRows, ∀ q ∈ opRows, r.selects w = true → q.selects w = true → r = q)

/-- R91, R94: a legal word is the encoding of the command it decodes to, so no bit of it is dropped. -/
def Obligations.EncodeDecodeRoundTrip : Prop :=
  ∀ (w : Word) (i : Instr), decode w = .ok i → encode i = w

/-- R88, R87: the map's match and mask select each command, with each operand read from its field as it stands. -/
def Obligations.MasksSelectCommands : Prop :=
  ∀ w : Word,
    (w &&& 0xFFFFFFFF#32 = 0x10000000#32 ↔ decode w = .ok .clr)
    ∧ (w &&& 0xFFFFFF00#32 = 0x20000000#32 ↔ decode w = .ok (.upd (w.extractLsb 7 0)))
    ∧ (w &&& 0xFF00FE00#32 = 0x30000000#32 ↔ decode w = .ok (.span (w.extractLsb 23 16) (w.extractLsb 8 0)))
    ∧ (w &&& 0xFFFFFFFF#32 = 0x40000000#32 ↔ decode w = .ok .chk)
    ∧ (w &&& 0xFFFFFFFF#32 = 0x50000000#32 ↔ decode w = .ok .fix)
    ∧ (w &&& 0xFFFF0000#32 = 0x60000000#32 ↔ decode w = .ok (.wrb (w.extractLsb 15 8) (w.extractLsb 7 0)))
    ∧ (w &&& 0xFFFF00FF#32 = 0x70000000#32 ↔ decode w = .ok (.rdb (w.extractLsb 15 8)))
    ∧ (w &&& 0xFFFFFFF0#32 = 0x80000000#32 ↔ decode w = .ok (.rdr (w.extractLsb 3 0)))

/-- R94: the masks express the same tests as the decoder. -/
def Obligations.LegalWordsMatchTheOpcodeMap : Prop :=
  ∀ w : Word, (∃ i, decode w = .ok i) ↔ wordWellFormed w = true

/-- R91: the count of legal words. -/
def Obligations.LegalWordCount : Prop :=
  Nat.card { w : Word // ∃ i, decode w = .ok i } = 197139

/-- Words written out from the spec's tables (95_test_vectors.md V30, V31). -/
def Obligations.SpecWordsDecode : Prop :=
  decode 0x10000000#32 = .ok .clr ∧ decode 0x20000031#32 = .ok (.upd 0x31#8)
  ∧ decode 0x30800012#32 = .ok (.span 128#8 18#9) ∧ decode 0x30000100#32 = .ok (.span 0#8 256#9)
  ∧ decode 0x40000000#32 = .ok .chk ∧ decode 0x50000000#32 = .ok .fix
  ∧ decode 0x60007EAB#32 = .ok (.wrb 126#8 0xAB#8) ∧ decode 0x70007F00#32 = .ok (.rdb 127#8)
  ∧ decode 0x80000004#32 = .ok (.rdr 4#4) ∧ decode 0x90000000#32 = .error (.reservedOpcode 9#4)
  ∧ decode 0x80000010#32 = .error (.mustBeZeroSet 8#4)

/-- R89. -/
def Obligations.ReservedOpcodesAreRefused : Prop :=
  (∀ (s : State) (w : Word), (slice w 31 28 = 0x0#4 ∨ 9 ≤ (slice w 31 28).toNat) →
    ∃ t, command w s = .next t ∧ RefusedTo s t 0x1#4)
  ∧ (∀ s : State, ∃ t, command 0x00000000#32 s = .next t ∧ RefusedTo s t 0x1#4)
  ∧ (∀ s : State, ∃ t, command 0xFFFFFFFF#32 s = .next t ∧ RefusedTo s t 0x1#4)

/-- R90, with the must-be-zero bits of each opcode's format written out from R81 to R86. -/
def Obligations.MustBeZeroBitsAreRefused : Prop :=
  ∀ (s : State) (w mbz : Word),
    (slice w 31 28, mbz) ∈ [(0x1#4, 0x0FFFFFFF#32), (0x2#4, 0x0FFFFF00#32), (0x3#4, 0x0F00FE00#32),
      (0x4#4, 0x0FFFFFFF#32), (0x5#4, 0x0FFFFFFF#32), (0x6#4, 0x0FFF0000#32), (0x7#4, 0x0FFF00FF#32),
      (0x8#4, 0x0FFFFFF0#32)] →
    w &&& mbz ≠ 0#32 → ∃ t, command w s = .next t ∧ RefusedTo s t 0x1#4

/-- R93. -/
def Obligations.OnlyTheTwoOperandConditionsRefuse : Prop :=
  ∀ s : State,
    (∀ (start : Addr) (len : BitVec 9), start.toNat + len.toNat > 256 →
      ∃ t, exec (.span start len) s = .next t ∧ RefusedTo s t 0x2#4)
    ∧ (∀ reg : BitVec 4, 5 ≤ reg.toNat → ∃ t, exec (.rdr reg) s = .next t ∧ RefusedTo s t 0x3#4)
    ∧ (∀ i : Instr, (∀ start len, i = .span start len → start.toNat + len.toNat ≤ 256) →
        (∀ reg, i = .rdr reg → reg.toNat < 5) →
        ∃ t r, exec i s = .next t ∧ SameErrors s t ∧ t.responses = s.responses ++ [r] ∧ r.getLsbD 31 = false)

/-- R96, R97: the response word of every command, legal or not. -/
def Obligations.ResponseWordOfEveryCommand : Prop :=
  ∀ (s : State) (w : Word), ∃ t r, command w s = .next t ∧ t.responses = s.responses ++ [r]
    ∧ slice r 30 28 = 0#3 ∧ slice r 23 16 = 0#8
    ∧ (r.getLsbD 31 = true ↔ commandRefused w = true)
    ∧ slice r 27 24 = refusalCode w
    ∧ (commandRefused w = false → refusalCode w = 0#4)
    ∧ (commandRefused w = true → slice r 15 0 = 0#16)
    ∧ (∀ i, decode w = .ok i → commandRefused w = false → slice r 15 0 = resultValue i t)
    ∧ (decode w = .ok .clr → slice r 15 0 = 0#16)

/-- R191, R192, R98: what a refusal with each cause does, and nothing else. -/
def Obligations.RefusalEffect : Prop :=
  ∀ s : State,
    RefusedTo s (s.refuse .illegalCmd) 0x1#4 ∧ RefusedTo s (s.refuse .spanRange) 0x2#4
    ∧ RefusedTo s (s.refuse .badReg) 0x3#4
    ∧ (s.refuse .illegalCmd).responses = s.responses ++ [0x81000000#32]
    ∧ (s.refuse .spanRange).responses = s.responses ++ [0x82000000#32]
    ∧ (s.refuse .badReg).responses = s.responses ++ [0x83000000#32]

/-! ## One step (00_scope.md R9, R12; 70_reset_and_hazards.md) -/

/-- A step runs the decoded command (R12, R27): the host's position moves on by one, and `exec` does the rest. -/
def Obligations.StepRunsTheDecodedCommand : Prop :=
  ∀ (s : State) (w : Word) (rest : List HostAction) (i : Instr),
    s.pending = .command w :: rest → decode w = .ok i → step s = exec i { s with pending := rest }

/-- R232: with no command pending, the state does not change. -/
def Obligations.StepWithNothingPending : Prop :=
  ∀ s : State, s.pending = [] → step s = .next s

/-- R220, R40. That the image becomes the free value of a reset count one higher is the model's form of "unspecified"
(log entries 1 and 2), and that the host's lists stay is log entry 13. -/
def Obligations.ResetStepEffect : Prop :=
  ∀ (s : State) (rest : List HostAction), s.pending = .reset :: rest →
    ∃ t, step s = .next t ∧ t.acc = 0#16 ∧ t.crcStored = 0#16 ∧ t.crcComputed = 0#16 ∧ t.statusWord = 0#16
      ∧ t.valid = false ∧ t.cov = false ∧ t.mismatch = false ∧ t.changed = false ∧ t.err = false ∧ t.cause = 0#4
      ∧ (∀ a, t.written a = false) ∧ (∀ a, t.readByte a = Config.imgReset (s.resets + 1) a)
      ∧ t.pending = rest ∧ t.responses = s.responses

/-- R40 at power-on: every register reads 0, and no byte of the image has been written (log entry 1). -/
def Obligations.ResetStateReadsZero : Prop :=
  (∀ reg : BitVec 4, reg.toNat ≤ 4 → State.reset.readReg reg = some 0#16)
  ∧ State.reset.valid = false ∧ State.reset.cov = false ∧ State.reset.mismatch = false
  ∧ State.reset.changed = false ∧ State.reset.err = false
  ∧ (∀ a, State.reset.written a = false ∧ State.reset.readByte a = Config.imgReset 0 a)

/-- R202: the engine is never stuck, and every command gets exactly one response. -/
def Obligations.EveryStepCompletes : Prop :=
  ∀ s : State, ∃ t, step s = .next t ∧ t.pending = s.pending.tail
    ∧ (∀ w rest, s.pending = .command w :: rest → ∃ r, t.responses = s.responses ++ [r])

/-! ## The eight commands -/

/-- R138. -/
def Obligations.ClrEffect : Prop :=
  encode .clr = 0x10000000#32
  ∧ (∀ w : Word, slice w 31 28 = 0x1#4 → w ≠ 0x10000000#32 → ∃ why, decode w = .error why)
  ∧ ∀ s : State, ∃ t, exec .clr s = .next t ∧ t.acc = 0#16 ∧ RespondsWith s t 0#16
      ∧ t.img = s.img ∧ SameImage s t ∧ SameResults s t ∧ SameErrors s t ∧ SameHostSide s t

/-- R140. -/
def Obligations.UpdEffect : Prop :=
  (∀ b : Byte, (encode (.upd b)).toNat = 0x20000000 + b.toNat)
  ∧ (∀ w : Word, slice w 31 28 = 0x2#4 → slice w 27 8 ≠ 0#20 → ∃ why, decode w = .error why)
  ∧ ∀ (s : State) (b : Byte), ∃ t, exec (.upd b) s = .next t
      ∧ t.acc = crcByte s.acc b ∧ RespondsWith s t (crcByte s.acc b)
      ∧ t.img = s.img ∧ SameImage s t ∧ SameResults s t ∧ SameErrors s t ∧ SameHostSide s t

/-- R142. -/
def Obligations.SpanEffect : Prop :=
  (∀ (start : Addr) (len : BitVec 9), (encode (.span start len)).toNat = 0x30000000 + start.toNat * 65536 + len.toNat)
  ∧ (∀ w : Word, slice w 31 28 = 0x3#4 → slice w 27 24 ≠ 0#4 ∨ slice w 15 9 ≠ 0#7 → ∃ why, decode w = .error why)
  ∧ (∀ (s : State) (start : Addr) (len : BitVec 9), start.toNat + len.toNat ≤ 256 →
      ∃ t, exec (.span start len) s = .next t
        ∧ t.acc = crc16 (imageBytes s start.toNat len.toNat) len.toNat ∧ RespondsWith s t t.acc
        ∧ t.img = s.img ∧ SameImage s t ∧ SameResults s t ∧ SameErrors s t ∧ SameHostSide s t)
  ∧ ∀ (s : State) (start : Addr) (len : BitVec 9), start.toNat + len.toNat > 256 →
      ∃ t, exec (.span start len) s = .next t ∧ RefusedTo s t 0x2#4

/-- R166. -/
def Obligations.ChkEffect : Prop :=
  encode .chk = 0x40000000#32
  ∧ (∀ w : Word, slice w 31 28 = 0x4#4 → w ≠ 0x40000000#32 → ∃ why, decode w = .error why)
  ∧ ∀ (s : State) (n : Nat) (stored computed : Half),
      n = (if (s.readByte 0#8).getLsbD 7 = true then 117 else 126) →
      stored = s.readByte 127#8 ++ s.readByte 126#8 → computed = crc16 (imageBytes s 0 n) n →
      ∃ t, exec .chk s = .next t
        ∧ t.acc = computed ∧ t.crcComputed = computed ∧ t.crcStored = stored
        ∧ t.cov = (s.readByte 0#8).getLsbD 7 ∧ (t.mismatch = true ↔ stored ≠ computed) ∧ t.valid = true
        ∧ RespondsWith s t (if stored = computed then 0#16 else 1#16)
        ∧ t.changed = s.changed ∧ t.img = s.img ∧ SameImage s t ∧ SameErrors s t ∧ SameHostSide s t

/-- R170. -/
def Obligations.FixEffect : Prop :=
  encode .fix = 0x50000000#32
  ∧ (∀ w : Word, slice w 31 28 = 0x5#4 → w ≠ 0x50000000#32 → ∃ why, decode w = .error why)
  ∧ ∀ (s : State) (n : Nat) (stored computed : Half),
      n = (if (s.readByte 0#8).getLsbD 7 = true then 117 else 126) →
      stored = s.readByte 127#8 ++ s.readByte 126#8 → computed = crc16 (imageBytes s 0 n) n →
      ∃ t, exec .fix s = .next t
        ∧ (stored = computed → t.img = s.img ∧ SameImage s t)
        ∧ (stored ≠ computed → t.readByte 126#8 = computed.extractLsb 7 0 ∧ t.readByte 127#8 = computed.extractLsb 15 8
            ∧ ∀ a, a ≠ 126#8 → a ≠ 127#8 → t.readByte a = s.readByte a)
        ∧ t.acc = computed ∧ t.crcComputed = computed ∧ t.crcStored = computed
        ∧ t.cov = (s.readByte 0#8).getLsbD 7 ∧ t.mismatch = false ∧ (t.changed = true ↔ stored ≠ computed)
        ∧ t.valid = true ∧ RespondsWith s t (if stored = computed then 0#16 else 1#16)
        ∧ SameErrors s t ∧ SameHostSide s t

/-- R112. -/
def Obligations.WrbEffect : Prop :=
  (∀ (addr : Addr) (data : Byte), (encode (.wrb addr data)).toNat = 0x60000000 + addr.toNat * 256 + data.toNat)
  ∧ (∀ w : Word, slice w 31 28 = 0x6#4 → slice w 27 16 ≠ 0#12 → ∃ why, decode w = .error why)
  ∧ ∀ (s : State) (addr : Addr) (data : Byte), ∃ t, exec (.wrb addr data) s = .next t
      ∧ t.readByte addr = data ∧ t.written addr = true
      ∧ (∀ a, a ≠ addr → t.readByte a = s.readByte a ∧ t.written a = s.written a)
      ∧ RespondsWith s t 0#16 ∧ t.acc = s.acc ∧ SameResults s t ∧ SameErrors s t ∧ SameHostSide s t

/-- R116. -/
def Obligations.RdbEffect : Prop :=
  (∀ addr : Addr, (encode (.rdb addr)).toNat = 0x70000000 + addr.toNat * 256)
  ∧ (∀ w : Word, slice w 31 28 = 0x7#4 → slice w 27 16 ≠ 0#12 ∨ slice w 7 0 ≠ 0#8 → ∃ why, decode w = .error why)
  ∧ ∀ (s : State) (addr : Addr), ∃ t, exec (.rdb addr) s = .next t
      ∧ RespondsWith s t (BitVec.ofNat 16 (s.readByte addr).toNat) ∧ SameMachine s t

/-- R120, R31. -/
def Obligations.RdrEffect : Prop :=
  (∀ reg : BitVec 4, (encode (.rdr reg)).toNat = 0x80000000 + reg.toNat)
  ∧ (∀ w : Word, slice w 31 28 = 0x8#4 → slice w 27 4 ≠ 0#24 → ∃ why, decode w = .error why)
  ∧ (∀ (s : State) (reg : BitVec 4) (v : Half),
      (reg, v) ∈ [(0#4, s.acc), (1#4, s.crcStored), (2#4, s.crcComputed),
        (3#4, BitVec.ofNat 16 (s.valid.toNat + 2 * s.cov.toNat + 4 * s.mismatch.toNat + 8 * s.changed.toNat
          + 16 * s.err.toNat)),
        (4#4, BitVec.ofNat 16 s.cause.toNat)] →
      ∃ t, exec (.rdr reg) s = .next t ∧ RespondsWith s t v ∧ SameMachine s t)
  ∧ ∀ (s : State) (reg : BitVec 4), 5 ≤ reg.toNat → ∃ t, exec (.rdr reg) s = .next t ∧ RefusedTo s t 0x3#4

/-! ## The CRC function (41_crc16_datapath.md) -/

/-- R131: bit 15 is tested before the shift, and the shift drops it. -/
def Obligations.CrcRoundDefinition : Prop :=
  (∀ v : Half, crcRound v =
    if v.getLsbD 15 = true then BitVec.ofNat 16 (2 * v.toNat) ^^^ 0x1021#16 else BitVec.ofNat 16 (2 * v.toNat))
  ∧ crcRound 0x0000#16 = 0x0000#16 ∧ crcRound 0x0001#16 = 0x0002#16 ∧ crcRound 0x4000#16 = 0x8000#16
  ∧ crcRound 0x8000#16 = 0x1021#16 ∧ crcRound 0x7FFF#16 = 0xFFFE#16 ∧ crcRound 0xFFFF#16 = 0xEFDF#16
  ∧ crcRound 0x8810#16 = 0x0001#16

/-- R132: the byte goes into bits 15 to 8 first, then exactly eight rounds. -/
def Obligations.CrcByteDefinition : Prop :=
  (∀ (acc : Half) (b : Byte), crcByte acc b = crcRound^[8] (acc ^^^ BitVec.ofNat 16 (256 * b.toNat)))
  ∧ crcByte 0x0000#16 0x00#8 = 0x0000#16 ∧ crcByte 0x0000#16 0x01#8 = 0x1021#16
  ∧ crcByte 0x0000#16 0x80#8 = 0x9188#16 ∧ crcByte 0x0000#16 0xFF#8 = 0x1EF0#16
  ∧ crcByte 0x0000#16 0x31#8 = 0x2672#16 ∧ crcByte 0x0001#16 0x00#8 = 0x0100#16
  ∧ crcByte 0x8000#16 0x00#8 = 0x9188#16 ∧ crcByte 0xFFFF#16 0x00#8 = 0xE1F0#16
  ∧ crcByte 0x1234#16 0x12#8 = 0x3400#16
  ∧ (List.range 9).map (fun k => crcRound^[k] 0x3100#16)
      = [0x3100#16, 0x6200#16, 0xC400#16, 0x9821#16, 0x2063#16, 0x40C6#16, 0x818C#16, 0x1339#16, 0x2672#16]

/-- R134: initial value 0, ascending order, only the first `n` bytes read, and the source's two vectors. -/
def Obligations.Crc16Definition : Prop :=
  (∀ seq : List Byte, crc16 seq 0 = 0#16)
  ∧ (∀ (seq : List Byte) (n : Nat) (b : Byte), seq[n]? = some b → crc16 seq (n + 1) = crcByte (crc16 seq n) b)
  ∧ (∀ (seq seq' : List Byte) (n : Nat), (∀ k, k < n → seq[k]? = seq'[k]?) → crc16 seq n = crc16 seq' n)
  ∧ crc16 [] 0 = 0x0000#16
  ∧ crc16 [0x31#8, 0x32#8, 0x33#8, 0x34#8, 0x35#8, 0x36#8, 0x37#8, 0x38#8, 0x39#8] 9 = 0x31C3#16

/-- R136 (a): leading zero bytes do not change a CRC. -/
def Obligations.CrcIgnoresLeadingZeros : Prop :=
  ∀ (k n : Nat) (seq : List Byte), crc16 (List.replicate k 0#8 ++ seq) (k + n) = crc16 seq n

/-- R136 (b): linearity over XOR. -/
def Obligations.CrcByteIsLinear : Prop :=
  ∀ (a a' : Half) (b b' : Byte), crcByte (a ^^^ a') (b ^^^ b') = crcByte a b ^^^ crcByte a' b'

/-- R136 (c): the byte-table form, with `T[x] = crc_byte(0, x)`. -/
def Obligations.CrcByteTableForm : Prop :=
  ∀ (acc : Half) (b : Byte),
    crcByte acc b = (acc.extractLsb 7 0 ++ 0#8) ^^^ crcByte 0#16 (acc.extractLsb 15 8 ^^^ b)

/-- R136 (d): composition. -/
def Obligations.CrcComposition : Prop :=
  ∀ s t : List Byte, crc16 (s ++ t) (s.length + t.length) = t.foldl crcByte (crc16 s s.length)

/-- R136 (e): a bijection in the running value, injective in the byte. -/
def Obligations.CrcByteIsInjective : Prop :=
  (∀ b : Byte, Function.Bijective fun acc => crcByte acc b) ∧ ∀ acc : Half, Function.Injective (crcByte acc)

/-- R136 (f): a sequence followed by its own CRC, high byte first, has CRC 0. -/
def Obligations.CrcResidueIsZero : Prop :=
  (∀ c : Half, crcByte (crcByte c (c.extractLsb 15 8)) (c.extractLsb 7 0) = 0#16)
  ∧ ∀ (seq : List Byte) (c : Half), c = crc16 seq seq.length →
      crc16 (seq ++ [c.extractLsb 15 8, c.extractLsb 7 0]) (seq.length + 2) = 0#16

/-- R141: CLR, then any commands that neither overwrite the accumulator nor are CLR (the absorbed bytes come from the UPD
among them, with WRB, RDB and RDR interleaved freely), leaves the CRC of the absorbed bytes; after `reset()` the CLR may be
left out. -/
def Obligations.StreamedCrc : Prop :=
  (∀ (s : State) (ws : List Word), (∀ w ∈ ws, keepsStream w = true) →
    ∃ t, runCommands (encode .clr :: ws) s = .next t
      ∧ t.acc = crc16 (absorbedBytes ws) (absorbedBytes ws).length)
  ∧ ∀ (s : State) (ws : List Word), (∀ w ∈ ws, keepsStream w = true) →
    ∃ t, runCommands ws s.hostReset = .next t ∧ t.acc = crc16 (absorbedBytes ws) (absorbedBytes ws).length

/-- R143: SPAN leaves the accumulator that CLR and one UPD per byte of the span leave. -/
def Obligations.SpanEqualsStream : Prop :=
  ∀ (s : State) (start : Addr) (len : BitVec 9), start.toNat + len.toNat ≤ 256 →
    ∃ t u, exec (.span start len) s = .next t
      ∧ runCommands (encode .clr :: (imageBytes s start.toNat len.toNat).map fun b => encode (.upd b)) s = .next u
      ∧ t.acc = u.acc

/-! ## Check and repair (42_spd_check_and_fix.md) -/

/-- R163: the computed CRC does not depend on any byte outside the span, the stored CRC among them. -/
def Obligations.ComputedCrcIgnoresUncoveredBytes : Prop :=
  ∀ (s : State) (a : Addr) (v : Byte), spanLength s.coverage ≤ a.toNat →
    (s.writeByte a v).computedCrc = s.computedCrc ∧ (s.writeByte a v).coverage = s.coverage

/-- R167: after a CHK the two CRC registers keep what it found, through any commands but CHK and FIX. -/
def Obligations.ChkSnapshotStays : Prop :=
  ∀ s : State, ∃ t, exec .chk s = .next t ∧
    ∀ ws : List Word, (∀ w ∈ ws, keepsSnapshot w = true) →
      ∃ u, runCommands ws t = .next u
        ∧ u.crcComputed = crc16 (imageBytes s 0 (spanLength ((s.readByte 0#8).getLsbD 7)))
            (spanLength ((s.readByte 0#8).getLsbD 7))
        ∧ u.crcStored = s.readByte 127#8 ++ s.readByte 126#8

/-- R171 (a) to (f). -/
def Obligations.FixLaws : Prop :=
  ∀ s : State, ∃ t r, exec .fix s = .next t ∧ t.responses = s.responses ++ [r]
    ∧ (∀ a, a ≠ 126#8 → a ≠ 127#8 → t.readByte a = s.readByte a)
    ∧ t.readByte 127#8 ++ t.readByte 126#8
        = crc16 (imageBytes t 0 (spanLength ((t.readByte 0#8).getLsbD 7))) (spanLength ((t.readByte 0#8).getLsbD 7))
    ∧ (∃ u, exec .fix t = .next u ∧ u.img = t.img ∧ u.responses = t.responses ++ [0#32])
    ∧ (∃ u, exec .chk t = .next u ∧ u.responses = t.responses ++ [0#32])
    ∧ (∃ u, exec .chk s = .next u ∧ u.responses = s.responses ++ [r])
    ∧ (r = 0#32 ∨ r = 1#32) ∧ (r = 0#32 → t.img = s.img) ∧ (r = 1#32 ↔ ∃ a, t.readByte a ≠ s.readByte a)

/-- R226, R136 (e): on a consistent image, a WRB that changes one covered byte and keeps the coverage bit leaves a stored CRC
that no longer matches, and CHK says so. -/
def Obligations.ChangedCoveredByteIsDetected : Prop :=
  ∀ (s : State) (a : Addr) (v : Byte), s.Consistent → a.toNat < spanLength s.coverage → v ≠ s.readByte a →
    (a = 0#8 → v.getLsbD 7 = s.coverage) →
    ∃ t u, exec (.wrb a v) s = .next t ∧ exec .chk t = .next u ∧ u.mismatch = true ∧ RespondsWith t u 1#16

/-! ## The whole machine -/

/-- R41 at reset. -/
def Obligations.LawsHoldAtReset : Prop := State.reset.Inv

/-- R41, R192, and the image's canonical form (log entry 4): every step keeps them, from every state. -/
def Obligations.StepKeepsLaws : Prop :=
  ∀ s t : State, s.Inv → step s = .next t → t.Inv

/-- R41: the laws hold in every state that any sequence of commands reaches from reset, at power-on or later. -/
def Obligations.ReachableStatesObeyLaws : Prop :=
  (∀ ws : List Word, ∃ t, runCommands ws State.reset = .next t ∧ t.Laws)
  ∧ ∀ (s : State) (ws : List Word), ∃ t, runCommands ws s.hostReset = .next t ∧ t.Laws

/-- R221. -/
def Obligations.OnlyResetClears : Prop :=
  (∀ s t : State, step s = .next t → (∀ rest, s.pending ≠ .reset :: rest) →
    (s.valid = true → t.valid = true) ∧ (s.err = true → t.err = true) ∧ (s.cause ≠ 0#4 → t.cause ≠ 0#4)
    ∧ (s.changed = true → t.changed = false → NextCommandIs s .fix ∧ s.storedCrc = s.computedCrc))
  ∧ (∀ s rest, s.pending = .reset :: rest →
    ∃ t, step s = .next t ∧ t.valid = false ∧ t.err = false ∧ t.cause = 0#4 ∧ t.changed = false)

/-- R26, R56: what each command may write; all else stays as it was. -/
def Obligations.WriteMatrix : Prop :=
  ∀ (i : Instr) (s : State), ∃ t, exec i s = .next t
    ∧ (i.opcode ∉ [0x1#4, 0x2#4, 0x3#4, 0x4#4, 0x5#4] → t.acc = s.acc)
    ∧ (i ≠ .chk → i ≠ .fix → t.crcStored = s.crcStored ∧ t.crcComputed = s.crcComputed ∧ t.valid = s.valid
        ∧ t.cov = s.cov ∧ t.mismatch = s.mismatch)
    ∧ (i ≠ .fix → t.changed = s.changed)
    ∧ (i.operandsAccepted = true → SameErrors s t)
    ∧ (i.operandsAccepted = false → t.acc = s.acc)
    ∧ (∀ a, a ∉ bytesWritten i s → t.readByte a = s.readByte a)
    ∧ SameHostSide s t

/-- R223: a command whose reads are all of bytes written since the last reset gives the same result whatever the image was
after reset; `resets` picks that image (log entries 1 and 2). -/
def Obligations.DefinedReadsIgnoreTheResetImage : Prop :=
  ∀ (i : Instr) (s : State) (n : Nat), DefinedReads i s →
    ∃ t, exec i s = .next t ∧ exec i { s with resets := n } = .next { t with resets := n }

/-- R28: no command's behaviour depends on the flags VALID, COV, MISMATCH, CHANGED, but for RDR of STATUS, which reads them. -/
def Obligations.FlagsDoNotSteerCommands : Prop :=
  ∀ (i : Instr) (s : State) (valid cov mismatch changed : Bool), ∃ t u, exec i s = .next t
    ∧ exec i { s with valid := valid, cov := cov, mismatch := mismatch, changed := changed } = .next u
    ∧ u.acc = t.acc ∧ u.crcStored = t.crcStored ∧ u.crcComputed = t.crcComputed ∧ u.img = t.img
    ∧ u.err = t.err ∧ u.cause = t.cause ∧ (i ≠ .rdr 3#4 → u.responses = t.responses)

/-- R57, R73: a read returns the last write to that address, through any commands that do not write it. -/
def Obligations.ReadReturnsTheLastWrite : Prop :=
  ∀ (s : State) (addr : Addr) (data : Byte) (ws : List Word), (∀ w ∈ ws, keepsByte addr w = true) →
    ∃ t u, runCommands (encode (.wrb addr data) :: ws) s = .next t ∧ exec (.rdb addr) t = .next u
      ∧ RespondsWith t u (data.setWidth 16)

/-- R200: after a refusal the next command executes as if the refused one had not been issued, except for ERR and CAUSE
(which RDR of STATUS and of CAUSE read). -/
def Obligations.RefusalDoesNotDisturbTheNextCommand : Prop :=
  ∀ (s : State) (c : Cause) (w : Word), decode w ≠ .ok (.rdr 3#4) → decode w ≠ .ok (.rdr 4#4) →
    ∃ t u r, command w s = .next t ∧ command w (s.refuse c) = .next u
      ∧ t.responses = s.responses ++ [r] ∧ u.responses = (s.refuse c).responses ++ [r]
      ∧ u.img = t.img ∧ SameImage t u ∧ u.acc = t.acc ∧ SameResults t u ∧ SameHostSide t u
      ∧ u.err = true ∧ u.cause = (s.refuse c).cause

/-- R203, R36: ERR at the end of a run says whether any of its commands was refused. -/
def Obligations.ErrRecordsAnyRefusal : Prop :=
  ∀ (ws : List Word) (s : State), ∃ t, runCommands ws s = .next t
    ∧ (t.err = false ↔ s.err = false ∧ ∀ w ∈ ws, commandRefused w = false)

/-- R37: CAUSE holds the cause code of the first command refused, or 0. -/
def Obligations.CauseIsTheFirstRefusals : Prop :=
  ∀ (ws : List Word) (s : State), s.err = false → s.cause = 0#4 → ∃ t, runCommands ws s = .next t
    ∧ t.cause = ((ws.find? commandRefused).map refusalCode).getD 0#4

/-- R233, R27: stepping through the host's list is applying `command` to each word in order, and the run ends with the list
exhausted and one response a command. -/
def Obligations.StepsRunTheHostsList : Prop :=
  ∀ (ws : List Word) (s : State), ∃ t,
    Host.Core.run Sys2Proof.core ws.length { s with pending := ws.map .command } = .next t
    ∧ runCommands ws { s with pending := [] } = .next t
    ∧ t.pending = [] ∧ t.responses.length = s.responses.length + ws.length

/-! ## The assembler (30_encoding.md R100 to R105) -/

/-- R101: the assembler never emits an illegal word, but as raw data. -/
def Obligations.AssemblerEmitsLegalWords : Prop :=
  ∀ (l : Line) (ws : List Word), (∀ n, l ≠ .word n) → assemble l = some ws → ∀ w ∈ ws, ∃ i, decode w = .ok i

/-- R103. -/
def Obligations.WrhStoresLittleEndian : Prop :=
  ∀ (s : State) (addr imm16 : Nat), addr ≤ 254 → imm16 < 65536 →
    ∃ t, assemble (.wrh addr imm16) = some [encode (.wrb (BitVec.ofNat 8 addr) (BitVec.ofNat 8 (imm16 % 256))),
        encode (.wrb (BitVec.ofNat 8 (addr + 1)) (BitVec.ofNat 8 (imm16 / 256)))]
      ∧ runCommands [encode (.wrb (BitVec.ofNat 8 addr) (BitVec.ofNat 8 (imm16 % 256))),
        encode (.wrb (BitVec.ofNat 8 (addr + 1)) (BitVec.ofNat 8 (imm16 / 256)))] s = .next t
      ∧ t.readByte (BitVec.ofNat 8 (addr + 1)) ++ t.readByte (BitVec.ofNat 8 addr) = BitVec.ofNat 16 imm16
      ∧ (addr = 126 → t.storedCrc = BitVec.ofNat 16 imm16)
      ∧ ∀ a : Addr, a.toNat ≠ addr → a.toNat ≠ addr + 1 → t.readByte a = s.readByte a

/-- R104: LDIMG puts each of its 256 bytes at its address, and DUMP then returns the image, byte by byte. -/
def Obligations.LdimgThenDump : Prop :=
  ∀ (s : State) (bytes : List Nat), bytes.length = 256 → (∀ b ∈ bytes, b < 256) →
    ∃ t u, assemble (.ldimg bytes) = some (bytes.zipIdx.map fun p => encode (.wrb (BitVec.ofNat 8 p.2) (BitVec.ofNat 8 p.1)))
      ∧ runCommands (bytes.zipIdx.map fun p => encode (.wrb (BitVec.ofNat 8 p.2) (BitVec.ofNat 8 p.1))) s = .next t
      ∧ t.responses = s.responses ++ List.replicate 256 0#32
      ∧ (∀ (k : Nat) (b : Nat), bytes[k]? = some b → t.readByte (BitVec.ofNat 8 k) = BitVec.ofNat 8 b)
      ∧ assemble .dump = some ((List.range 256).map fun a => encode (.rdb (BitVec.ofNat 8 a)))
      ∧ runCommands ((List.range 256).map fun a => encode (.rdb (BitVec.ofNat 8 a))) t = .next u ∧ SameMachine t u
      ∧ u.responses = t.responses ++ bytes.map (BitVec.ofNat 32)

/-- R102, R105. -/
def Obligations.CrcPseudoInstructions : Prop :=
  (∀ len : Nat, assemble (.crc16 len) = assemble (.span 0 len))
  ∧ (∀ (s : State) (len : Nat), len ≤ 256 →
      ∃ ws t, assemble (.crc16 len) = some ws ∧ runCommands ws s = .next t ∧ t.acc = crc16 (imageBytes s 0 len) len)
  ∧ (∀ (s : State) (codes : List Nat), (∀ c ∈ codes, c < 128) →
      ∃ ws t, assemble (.str codes) = some ws ∧ ws = codes.map (fun c => encode (.upd (BitVec.ofNat 8 c)))
        ∧ runCommands (encode .clr :: ws) s = .next t
        ∧ t.acc = crc16 (codes.map (BitVec.ofNat 8)) codes.length)
  ∧ ∀ s : State, ∃ ws t, assemble (.str [0x31, 0x32, 0x33, 0x34, 0x35, 0x36, 0x37, 0x38, 0x39]) = some ws
      ∧ runCommands (encode .clr :: ws) s = .next t ∧ t.acc = 0x31C3#16
end

