-- ==== Sys2Proof/Laws/State.lean ====
section
/-! SUPPORT. One lemma per field per update of State: what each named update leaves in each field. -/

namespace Sys2Proof.Machine

variable (s : State)

/-! ### writeByte -/

@[simp] theorem State.writeByte_acc (a : Addr) (v : Byte) : (s.writeByte a v).acc = s.acc := rfl
@[simp] theorem State.writeByte_crcStored (a : Addr) (v : Byte) : (s.writeByte a v).crcStored = s.crcStored := rfl
@[simp] theorem State.writeByte_crcComputed (a : Addr) (v : Byte) : (s.writeByte a v).crcComputed = s.crcComputed := rfl
@[simp] theorem State.writeByte_valid (a : Addr) (v : Byte) : (s.writeByte a v).valid = s.valid := rfl
@[simp] theorem State.writeByte_cov (a : Addr) (v : Byte) : (s.writeByte a v).cov = s.cov := rfl
@[simp] theorem State.writeByte_mismatch (a : Addr) (v : Byte) : (s.writeByte a v).mismatch = s.mismatch := rfl
@[simp] theorem State.writeByte_changed (a : Addr) (v : Byte) : (s.writeByte a v).changed = s.changed := rfl
@[simp] theorem State.writeByte_err (a : Addr) (v : Byte) : (s.writeByte a v).err = s.err := rfl
@[simp] theorem State.writeByte_cause (a : Addr) (v : Byte) : (s.writeByte a v).cause = s.cause := rfl
@[simp] theorem State.writeByte_img (a : Addr) (v : Byte) : (s.writeByte a v).img = Memory.insert a.toNat v s.img := rfl
@[simp] theorem State.writeByte_resets (a : Addr) (v : Byte) : (s.writeByte a v).resets = s.resets := rfl
@[simp] theorem State.writeByte_pending (a : Addr) (v : Byte) : (s.writeByte a v).pending = s.pending := rfl
@[simp] theorem State.writeByte_responses (a : Addr) (v : Byte) : (s.writeByte a v).responses = s.responses := rfl

/-! ### storeCrc -/

@[simp] theorem State.storeCrc_acc (v : Half) : (s.storeCrc v).acc = s.acc := rfl
@[simp] theorem State.storeCrc_crcStored (v : Half) : (s.storeCrc v).crcStored = s.crcStored := rfl
@[simp] theorem State.storeCrc_crcComputed (v : Half) : (s.storeCrc v).crcComputed = s.crcComputed := rfl
@[simp] theorem State.storeCrc_valid (v : Half) : (s.storeCrc v).valid = s.valid := rfl
@[simp] theorem State.storeCrc_cov (v : Half) : (s.storeCrc v).cov = s.cov := rfl
@[simp] theorem State.storeCrc_mismatch (v : Half) : (s.storeCrc v).mismatch = s.mismatch := rfl
@[simp] theorem State.storeCrc_changed (v : Half) : (s.storeCrc v).changed = s.changed := rfl
@[simp] theorem State.storeCrc_err (v : Half) : (s.storeCrc v).err = s.err := rfl
@[simp] theorem State.storeCrc_cause (v : Half) : (s.storeCrc v).cause = s.cause := rfl
@[simp] theorem State.storeCrc_img (v : Half) : (s.storeCrc v).img = Memory.insert 127 (highByte v) (Memory.insert 126 (lowByte v) s.img) := rfl
@[simp] theorem State.storeCrc_resets (v : Half) : (s.storeCrc v).resets = s.resets := rfl
@[simp] theorem State.storeCrc_pending (v : Half) : (s.storeCrc v).pending = s.pending := rfl
@[simp] theorem State.storeCrc_responses (v : Half) : (s.storeCrc v).responses = s.responses := rfl

/-! ### repair -/

@[simp] theorem State.repair_acc (c : Bool) (v : Half) : (s.repair c v).acc = s.acc := rfl
@[simp] theorem State.repair_crcStored (c : Bool) (v : Half) : (s.repair c v).crcStored = s.crcStored := rfl
@[simp] theorem State.repair_crcComputed (c : Bool) (v : Half) : (s.repair c v).crcComputed = s.crcComputed := rfl
@[simp] theorem State.repair_valid (c : Bool) (v : Half) : (s.repair c v).valid = s.valid := rfl
@[simp] theorem State.repair_cov (c : Bool) (v : Half) : (s.repair c v).cov = s.cov := rfl
@[simp] theorem State.repair_mismatch (c : Bool) (v : Half) : (s.repair c v).mismatch = s.mismatch := rfl
@[simp] theorem State.repair_changed (c : Bool) (v : Half) : (s.repair c v).changed = s.changed := rfl
@[simp] theorem State.repair_err (c : Bool) (v : Half) : (s.repair c v).err = s.err := rfl
@[simp] theorem State.repair_cause (c : Bool) (v : Half) : (s.repair c v).cause = s.cause := rfl
@[simp] theorem State.repair_img (c : Bool) (v : Half) : (s.repair c v).img = if c then (s.storeCrc v).img else s.img := rfl
@[simp] theorem State.repair_resets (c : Bool) (v : Half) : (s.repair c v).resets = s.resets := rfl
@[simp] theorem State.repair_pending (c : Bool) (v : Half) : (s.repair c v).pending = s.pending := rfl
@[simp] theorem State.repair_responses (c : Bool) (v : Half) : (s.repair c v).responses = s.responses := rfl

/-! ### giveResponse -/

@[simp] theorem State.giveResponse_acc (r : Word) : (s.giveResponse r).acc = s.acc := rfl
@[simp] theorem State.giveResponse_crcStored (r : Word) : (s.giveResponse r).crcStored = s.crcStored := rfl
@[simp] theorem State.giveResponse_crcComputed (r : Word) : (s.giveResponse r).crcComputed = s.crcComputed := rfl
@[simp] theorem State.giveResponse_valid (r : Word) : (s.giveResponse r).valid = s.valid := rfl
@[simp] theorem State.giveResponse_cov (r : Word) : (s.giveResponse r).cov = s.cov := rfl
@[simp] theorem State.giveResponse_mismatch (r : Word) : (s.giveResponse r).mismatch = s.mismatch := rfl
@[simp] theorem State.giveResponse_changed (r : Word) : (s.giveResponse r).changed = s.changed := rfl
@[simp] theorem State.giveResponse_err (r : Word) : (s.giveResponse r).err = s.err := rfl
@[simp] theorem State.giveResponse_cause (r : Word) : (s.giveResponse r).cause = s.cause := rfl
@[simp] theorem State.giveResponse_img (r : Word) : (s.giveResponse r).img = s.img := rfl
@[simp] theorem State.giveResponse_resets (r : Word) : (s.giveResponse r).resets = s.resets := rfl
@[simp] theorem State.giveResponse_pending (r : Word) : (s.giveResponse r).pending = s.pending := rfl
@[simp] theorem State.giveResponse_responses (r : Word) : (s.giveResponse r).responses = s.responses ++ [r] := rfl

/-! ### respond -/

@[simp] theorem State.respond_acc (v : Half) : (s.respond v).acc = s.acc := rfl
@[simp] theorem State.respond_crcStored (v : Half) : (s.respond v).crcStored = s.crcStored := rfl
@[simp] theorem State.respond_crcComputed (v : Half) : (s.respond v).crcComputed = s.crcComputed := rfl
@[simp] theorem State.respond_valid (v : Half) : (s.respond v).valid = s.valid := rfl
@[simp] theorem State.respond_cov (v : Half) : (s.respond v).cov = s.cov := rfl
@[simp] theorem State.respond_mismatch (v : Half) : (s.respond v).mismatch = s.mismatch := rfl
@[simp] theorem State.respond_changed (v : Half) : (s.respond v).changed = s.changed := rfl
@[simp] theorem State.respond_err (v : Half) : (s.respond v).err = s.err := rfl
@[simp] theorem State.respond_cause (v : Half) : (s.respond v).cause = s.cause := rfl
@[simp] theorem State.respond_img (v : Half) : (s.respond v).img = s.img := rfl
@[simp] theorem State.respond_resets (v : Half) : (s.respond v).resets = s.resets := rfl
@[simp] theorem State.respond_pending (v : Half) : (s.respond v).pending = s.pending := rfl
@[simp] theorem State.respond_responses (v : Half) : (s.respond v).responses = s.responses ++ [responseWord false 0x0#4 v] := rfl

/-! ### recordRefusal -/

@[simp] theorem State.recordRefusal_acc (c : Cause) : (s.recordRefusal c).acc = s.acc := rfl
@[simp] theorem State.recordRefusal_crcStored (c : Cause) : (s.recordRefusal c).crcStored = s.crcStored := rfl
@[simp] theorem State.recordRefusal_crcComputed (c : Cause) : (s.recordRefusal c).crcComputed = s.crcComputed := rfl
@[simp] theorem State.recordRefusal_valid (c : Cause) : (s.recordRefusal c).valid = s.valid := rfl
@[simp] theorem State.recordRefusal_cov (c : Cause) : (s.recordRefusal c).cov = s.cov := rfl
@[simp] theorem State.recordRefusal_mismatch (c : Cause) : (s.recordRefusal c).mismatch = s.mismatch := rfl
@[simp] theorem State.recordRefusal_changed (c : Cause) : (s.recordRefusal c).changed = s.changed := rfl
@[simp] theorem State.recordRefusal_err (c : Cause) : (s.recordRefusal c).err = true := rfl
@[simp] theorem State.recordRefusal_cause (c : Cause) : (s.recordRefusal c).cause = if s.err then s.cause else c.code := rfl
@[simp] theorem State.recordRefusal_img (c : Cause) : (s.recordRefusal c).img = s.img := rfl
@[simp] theorem State.recordRefusal_resets (c : Cause) : (s.recordRefusal c).resets = s.resets := rfl
@[simp] theorem State.recordRefusal_pending (c : Cause) : (s.recordRefusal c).pending = s.pending := rfl
@[simp] theorem State.recordRefusal_responses (c : Cause) : (s.recordRefusal c).responses = s.responses := rfl

/-! ### refuse -/

@[simp] theorem State.refuse_acc (c : Cause) : (s.refuse c).acc = s.acc := rfl
@[simp] theorem State.refuse_crcStored (c : Cause) : (s.refuse c).crcStored = s.crcStored := rfl
@[simp] theorem State.refuse_crcComputed (c : Cause) : (s.refuse c).crcComputed = s.crcComputed := rfl
@[simp] theorem State.refuse_valid (c : Cause) : (s.refuse c).valid = s.valid := rfl
@[simp] theorem State.refuse_cov (c : Cause) : (s.refuse c).cov = s.cov := rfl
@[simp] theorem State.refuse_mismatch (c : Cause) : (s.refuse c).mismatch = s.mismatch := rfl
@[simp] theorem State.refuse_changed (c : Cause) : (s.refuse c).changed = s.changed := rfl
@[simp] theorem State.refuse_err (c : Cause) : (s.refuse c).err = true := rfl
@[simp] theorem State.refuse_cause (c : Cause) : (s.refuse c).cause = if s.err then s.cause else c.code := rfl
@[simp] theorem State.refuse_img (c : Cause) : (s.refuse c).img = s.img := rfl
@[simp] theorem State.refuse_resets (c : Cause) : (s.refuse c).resets = s.resets := rfl
@[simp] theorem State.refuse_pending (c : Cause) : (s.refuse c).pending = s.pending := rfl
@[simp] theorem State.refuse_responses (c : Cause) : (s.refuse c).responses = s.responses ++ [responseWord true c.code 0x0000#16] := rfl

/-! ### setAcc -/

@[simp] theorem State.setAcc_acc (v : Half) : (s.setAcc v).acc = v := rfl
@[simp] theorem State.setAcc_crcStored (v : Half) : (s.setAcc v).crcStored = s.crcStored := rfl
@[simp] theorem State.setAcc_crcComputed (v : Half) : (s.setAcc v).crcComputed = s.crcComputed := rfl
@[simp] theorem State.setAcc_valid (v : Half) : (s.setAcc v).valid = s.valid := rfl
@[simp] theorem State.setAcc_cov (v : Half) : (s.setAcc v).cov = s.cov := rfl
@[simp] theorem State.setAcc_mismatch (v : Half) : (s.setAcc v).mismatch = s.mismatch := rfl
@[simp] theorem State.setAcc_changed (v : Half) : (s.setAcc v).changed = s.changed := rfl
@[simp] theorem State.setAcc_err (v : Half) : (s.setAcc v).err = s.err := rfl
@[simp] theorem State.setAcc_cause (v : Half) : (s.setAcc v).cause = s.cause := rfl
@[simp] theorem State.setAcc_img (v : Half) : (s.setAcc v).img = s.img := rfl
@[simp] theorem State.setAcc_resets (v : Half) : (s.setAcc v).resets = s.resets := rfl
@[simp] theorem State.setAcc_pending (v : Half) : (s.setAcc v).pending = s.pending := rfl
@[simp] theorem State.setAcc_responses (v : Half) : (s.setAcc v).responses = s.responses := rfl

/-! ### setSnapshot -/

@[simp] theorem State.setSnapshot_acc (stored computed : Half) : (s.setSnapshot stored computed).acc = s.acc := rfl
@[simp] theorem State.setSnapshot_crcStored (stored computed : Half) : (s.setSnapshot stored computed).crcStored = stored := rfl
@[simp] theorem State.setSnapshot_crcComputed (stored computed : Half) : (s.setSnapshot stored computed).crcComputed = computed := rfl
@[simp] theorem State.setSnapshot_valid (stored computed : Half) : (s.setSnapshot stored computed).valid = s.valid := rfl
@[simp] theorem State.setSnapshot_cov (stored computed : Half) : (s.setSnapshot stored computed).cov = s.cov := rfl
@[simp] theorem State.setSnapshot_mismatch (stored computed : Half) : (s.setSnapshot stored computed).mismatch = s.mismatch := rfl
@[simp] theorem State.setSnapshot_changed (stored computed : Half) : (s.setSnapshot stored computed).changed = s.changed := rfl
@[simp] theorem State.setSnapshot_err (stored computed : Half) : (s.setSnapshot stored computed).err = s.err := rfl
@[simp] theorem State.setSnapshot_cause (stored computed : Half) : (s.setSnapshot stored computed).cause = s.cause := rfl
@[simp] theorem State.setSnapshot_img (stored computed : Half) : (s.setSnapshot stored computed).img = s.img := rfl
@[simp] theorem State.setSnapshot_resets (stored computed : Half) : (s.setSnapshot stored computed).resets = s.resets := rfl
@[simp] theorem State.setSnapshot_pending (stored computed : Half) : (s.setSnapshot stored computed).pending = s.pending := rfl
@[simp] theorem State.setSnapshot_responses (stored computed : Half) : (s.setSnapshot stored computed).responses = s.responses := rfl

/-! ### setCheckFlags -/

@[simp] theorem State.setCheckFlags_acc (c m : Bool) : (s.setCheckFlags c m).acc = s.acc := rfl
@[simp] theorem State.setCheckFlags_crcStored (c m : Bool) : (s.setCheckFlags c m).crcStored = s.crcStored := rfl
@[simp] theorem State.setCheckFlags_crcComputed (c m : Bool) : (s.setCheckFlags c m).crcComputed = s.crcComputed := rfl
@[simp] theorem State.setCheckFlags_valid (c m : Bool) : (s.setCheckFlags c m).valid = true := rfl
@[simp] theorem State.setCheckFlags_cov (c m : Bool) : (s.setCheckFlags c m).cov = c := rfl
@[simp] theorem State.setCheckFlags_mismatch (c m : Bool) : (s.setCheckFlags c m).mismatch = m := rfl
@[simp] theorem State.setCheckFlags_changed (c m : Bool) : (s.setCheckFlags c m).changed = s.changed := rfl
@[simp] theorem State.setCheckFlags_err (c m : Bool) : (s.setCheckFlags c m).err = s.err := rfl
@[simp] theorem State.setCheckFlags_cause (c m : Bool) : (s.setCheckFlags c m).cause = s.cause := rfl
@[simp] theorem State.setCheckFlags_img (c m : Bool) : (s.setCheckFlags c m).img = s.img := rfl
@[simp] theorem State.setCheckFlags_resets (c m : Bool) : (s.setCheckFlags c m).resets = s.resets := rfl
@[simp] theorem State.setCheckFlags_pending (c m : Bool) : (s.setCheckFlags c m).pending = s.pending := rfl
@[simp] theorem State.setCheckFlags_responses (c m : Bool) : (s.setCheckFlags c m).responses = s.responses := rfl

/-! ### setChanged -/

@[simp] theorem State.setChanged_acc (c : Bool) : (s.setChanged c).acc = s.acc := rfl
@[simp] theorem State.setChanged_crcStored (c : Bool) : (s.setChanged c).crcStored = s.crcStored := rfl
@[simp] theorem State.setChanged_crcComputed (c : Bool) : (s.setChanged c).crcComputed = s.crcComputed := rfl
@[simp] theorem State.setChanged_valid (c : Bool) : (s.setChanged c).valid = s.valid := rfl
@[simp] theorem State.setChanged_cov (c : Bool) : (s.setChanged c).cov = s.cov := rfl
@[simp] theorem State.setChanged_mismatch (c : Bool) : (s.setChanged c).mismatch = s.mismatch := rfl
@[simp] theorem State.setChanged_changed (c : Bool) : (s.setChanged c).changed = c := rfl
@[simp] theorem State.setChanged_err (c : Bool) : (s.setChanged c).err = s.err := rfl
@[simp] theorem State.setChanged_cause (c : Bool) : (s.setChanged c).cause = s.cause := rfl
@[simp] theorem State.setChanged_img (c : Bool) : (s.setChanged c).img = s.img := rfl
@[simp] theorem State.setChanged_resets (c : Bool) : (s.setChanged c).resets = s.resets := rfl
@[simp] theorem State.setChanged_pending (c : Bool) : (s.setChanged c).pending = s.pending := rfl
@[simp] theorem State.setChanged_responses (c : Bool) : (s.setChanged c).responses = s.responses := rfl

/-! ### hostReset -/

@[simp] theorem State.hostReset_acc : s.hostReset.acc = 0x0000#16 := rfl
@[simp] theorem State.hostReset_crcStored : s.hostReset.crcStored = 0x0000#16 := rfl
@[simp] theorem State.hostReset_crcComputed : s.hostReset.crcComputed = 0x0000#16 := rfl
@[simp] theorem State.hostReset_valid : s.hostReset.valid = false := rfl
@[simp] theorem State.hostReset_cov : s.hostReset.cov = false := rfl
@[simp] theorem State.hostReset_mismatch : s.hostReset.mismatch = false := rfl
@[simp] theorem State.hostReset_changed : s.hostReset.changed = false := rfl
@[simp] theorem State.hostReset_err : s.hostReset.err = false := rfl
@[simp] theorem State.hostReset_cause : s.hostReset.cause = 0x0#4 := rfl
@[simp] theorem State.hostReset_img : s.hostReset.img = [] := rfl
@[simp] theorem State.hostReset_resets : s.hostReset.resets = s.resets + 1 := rfl
@[simp] theorem State.hostReset_pending : s.hostReset.pending = s.pending := rfl
@[simp] theorem State.hostReset_responses : s.hostReset.responses = s.responses := rfl

/-! ### actionTaken -/

@[simp] theorem State.actionTaken_acc (rest : List HostAction) : (s.actionTaken rest).acc = s.acc := rfl
@[simp] theorem State.actionTaken_crcStored (rest : List HostAction) : (s.actionTaken rest).crcStored = s.crcStored := rfl
@[simp] theorem State.actionTaken_crcComputed (rest : List HostAction) : (s.actionTaken rest).crcComputed = s.crcComputed := rfl
@[simp] theorem State.actionTaken_valid (rest : List HostAction) : (s.actionTaken rest).valid = s.valid := rfl
@[simp] theorem State.actionTaken_cov (rest : List HostAction) : (s.actionTaken rest).cov = s.cov := rfl
@[simp] theorem State.actionTaken_mismatch (rest : List HostAction) : (s.actionTaken rest).mismatch = s.mismatch := rfl
@[simp] theorem State.actionTaken_changed (rest : List HostAction) : (s.actionTaken rest).changed = s.changed := rfl
@[simp] theorem State.actionTaken_err (rest : List HostAction) : (s.actionTaken rest).err = s.err := rfl
@[simp] theorem State.actionTaken_cause (rest : List HostAction) : (s.actionTaken rest).cause = s.cause := rfl
@[simp] theorem State.actionTaken_img (rest : List HostAction) : (s.actionTaken rest).img = s.img := rfl
@[simp] theorem State.actionTaken_resets (rest : List HostAction) : (s.actionTaken rest).resets = s.resets := rfl
@[simp] theorem State.actionTaken_pending (rest : List HostAction) : (s.actionTaken rest).pending = rest := rfl
@[simp] theorem State.actionTaken_responses (rest : List HostAction) : (s.actionTaken rest).responses = s.responses := rfl

/-! ### issueNext -/

@[simp] theorem State.issueNext_acc (w : Word) : (s.issueNext w).acc = s.acc := rfl
@[simp] theorem State.issueNext_crcStored (w : Word) : (s.issueNext w).crcStored = s.crcStored := rfl
@[simp] theorem State.issueNext_crcComputed (w : Word) : (s.issueNext w).crcComputed = s.crcComputed := rfl
@[simp] theorem State.issueNext_valid (w : Word) : (s.issueNext w).valid = s.valid := rfl
@[simp] theorem State.issueNext_cov (w : Word) : (s.issueNext w).cov = s.cov := rfl
@[simp] theorem State.issueNext_mismatch (w : Word) : (s.issueNext w).mismatch = s.mismatch := rfl
@[simp] theorem State.issueNext_changed (w : Word) : (s.issueNext w).changed = s.changed := rfl
@[simp] theorem State.issueNext_err (w : Word) : (s.issueNext w).err = s.err := rfl
@[simp] theorem State.issueNext_cause (w : Word) : (s.issueNext w).cause = s.cause := rfl
@[simp] theorem State.issueNext_img (w : Word) : (s.issueNext w).img = s.img := rfl
@[simp] theorem State.issueNext_resets (w : Word) : (s.issueNext w).resets = s.resets := rfl
@[simp] theorem State.issueNext_pending (w : Word) : (s.issueNext w).pending = .command w :: s.pending := rfl
@[simp] theorem State.issueNext_responses (w : Word) : (s.issueNext w).responses = s.responses := rfl

end Sys2Proof.Machine
end

