-- ==== Sys2Proof/Laws/Memory.lean ====
section
/-! SUPPORT. The image: reading after writing, the canonical form and that every operation keeps it, and that two
images in canonical form that list the same bytes are the same data. -/

namespace Sys2Proof.Machine

theorem Memory.lookup_insert_same (m : Memory) (a : Nat) (v : Byte) : Memory.lookup (Memory.insert a v m) a = some v := by
  induction m with
  | nil => simp [Memory.insert, Memory.lookup]
  | cons c rest ih =>
    obtain ⟨b, w⟩ := c
    simp only [Memory.insert]
    split
    · simp [Memory.lookup]
    · split
      · simp [Memory.lookup]
      · rw [Memory.lookup, if_neg (fun h => by omega), ih]

theorem Memory.lookup_insert_other (m : Memory) {a b : Nat} (v : Byte) (h : b ≠ a) :
    Memory.lookup (Memory.insert a v m) b = Memory.lookup m b := by
  induction m with
  | nil => simp [Memory.insert, Memory.lookup, h.symm]
  | cons c rest ih =>
    obtain ⟨d, w⟩ := c
    simp only [Memory.insert]
    split
    · simp [Memory.lookup, h.symm]
    · split
      · subst_vars
        simp [Memory.lookup, h.symm]
      · simp only [Memory.lookup, ih]

theorem Memory.risesFrom_insert (m : Memory) {lo a : Nat} (v : Byte) (hlo : lo ≤ a) (ha : a < Config.imgSize)
    (h : Memory.risesFrom lo m = true) : Memory.risesFrom lo (Memory.insert a v m) = true := by
  induction m generalizing lo with
  | nil => simp [Memory.insert, Memory.risesFrom, hlo, ha]
  | cons c rest ih =>
    obtain ⟨b, w⟩ := c
    simp only [Memory.risesFrom, Bool.and_eq_true, decide_eq_true_eq] at h
    simp only [Memory.insert]
    split
    · simp only [Memory.risesFrom, Bool.and_eq_true, decide_eq_true_eq]
      exact ⟨⟨hlo, ha⟩, ⟨by omega, h.1.2⟩, h.2⟩
    · split
      · subst_vars
        simp [Memory.risesFrom, h]
      · simp only [Memory.risesFrom, Bool.and_eq_true, decide_eq_true_eq]
        exact ⟨h.1, ih (by omega) h.2⟩

/-- Writing any image address keeps the canonical form. -/
theorem Memory.wf_insert (m : Memory) {a : Nat} (v : Byte) (ha : a < Config.imgSize) (h : Memory.wf m = true) :
    Memory.wf (Memory.insert a v m) = true := Memory.risesFrom_insert m v (Nat.zero_le a) ha h

theorem State.writeByte_wf (s : State) (a : Addr) (v : Byte) (h : Memory.wf s.img = true) :
    Memory.wf (s.writeByte a v).img = true := Memory.wf_insert s.img v a.isLt h

theorem State.storeCrc_wf (s : State) (v : Half) (h : Memory.wf s.img = true) : Memory.wf (s.storeCrc v).img = true :=
  State.writeByte_wf _ _ _ (State.writeByte_wf _ _ _ h)

theorem State.reset_wf : Memory.wf State.reset.img = true := rfl

/-- Below the least address an image may list, it lists nothing. -/
theorem Memory.lookup_below (m : Memory) {lo a : Nat} (h : Memory.risesFrom lo m = true) (ha : a < lo) :
    Memory.lookup m a = none := by
  induction m generalizing lo with
  | nil => rfl
  | cons c rest ih =>
    obtain ⟨b, w⟩ := c
    simp only [Memory.risesFrom, Bool.and_eq_true, decide_eq_true_eq] at h
    rw [Memory.lookup, if_neg (by omega), ih h.2 (by omega)]

theorem Memory.ext_from (m n : Memory) {lo : Nat} (hm : Memory.risesFrom lo m = true)
    (hn : Memory.risesFrom lo n = true) (h : ∀ a, Memory.lookup m a = Memory.lookup n a) : m = n := by
  induction m generalizing n lo with
  | nil =>
    cases n with
    | nil => rfl
    | cons c rest => exact absurd (h c.1) (by simp [Memory.lookup])
  | cons c rest ih =>
    cases n with
    | nil => exact absurd (h c.1) (by simp [Memory.lookup])
    | cons d rest' =>
      obtain ⟨b, v⟩ := c
      obtain ⟨b', v'⟩ := d
      have hm0 := hm
      have hn0 := hn
      simp only [Memory.risesFrom, Bool.and_eq_true, decide_eq_true_eq] at hm hn
      have hb : b = b' := by
        rcases Nat.lt_trichotomy b b' with hlt | heq | hgt
        · have := h b
          rw [Memory.lookup, if_pos rfl, Memory.lookup, if_neg (by omega), Memory.lookup_below rest' hn.2 (by omega)] at this
          cases this
        · exact heq
        · have := h b'
          rw [Memory.lookup, if_neg (by omega), Memory.lookup_below rest hm.2 (by omega), Memory.lookup, if_pos rfl] at this
          cases this
      subst hb
      have hv : v = v' := by simpa [Memory.lookup] using h b
      subst hv
      refine congrArg _ (ih rest' hm.2 hn.2 fun a => ?_)
      by_cases hab : b = a
      · rw [Memory.lookup_below rest hm.2 (by omega), Memory.lookup_below rest' hn.2 (by omega)]
      · simpa [Memory.lookup, hab] using h a

/-- Two images in canonical form that list the same bytes are the same data (log entry 4). -/
theorem Memory.ext_lookup {m n : Memory} (hm : Memory.wf m = true) (hn : Memory.wf n = true)
    (h : ∀ a, Memory.lookup m a = Memory.lookup n a) : m = n := Memory.ext_from m n hm hn h

@[simp] theorem State.readByte_writeByte_same (s : State) (a : Addr) (v : Byte) : (s.writeByte a v).readByte a = v := by
  simp [State.readByte, State.writeByte, Memory.lookup_insert_same]

theorem State.readByte_writeByte_other (s : State) {a b : Addr} (v : Byte) (h : b ≠ a) :
    (s.writeByte a v).readByte b = s.readByte b := by
  have : b.toNat ≠ a.toNat := fun e => h (BitVec.eq_of_toNat_eq e)
  simp [State.readByte, State.unlistedByte, State.writeByte, Memory.lookup_insert_other _ _ this]

/-- Reading depends on the image and the reset count alone. -/
theorem State.readByte_congr {s t : State} (hi : t.img = s.img) (hr : t.resets = s.resets) (a : Addr) :
    t.readByte a = s.readByte a := by simp [State.readByte, State.unlistedByte, hi, hr]

end Sys2Proof.Machine
end

