-- ==== Sys2Proof/Laws/Ops.lean ====
section
/-! SUPPORT. One lemma per shared operation, saying once all it does. -/

namespace Sys2Proof.Machine

@[simp] theorem State.readByte_giveResponse (s : State) (r : Word) (a : Addr) :
    (s.giveResponse r).readByte a = s.readByte a := rfl

@[simp] theorem State.readByte_respond (s : State) (v : Half) (a : Addr) : (s.respond v).readByte a = s.readByte a := rfl

@[simp] theorem State.readByte_setAcc (s : State) (v : Half) (a : Addr) : (s.setAcc v).readByte a = s.readByte a := rfl

@[simp] theorem State.readByte_setSnapshot (s : State) (u v : Half) (a : Addr) :
    (s.setSnapshot u v).readByte a = s.readByte a := rfl

@[simp] theorem State.readByte_setCheckFlags (s : State) (c m : Bool) (a : Addr) :
    (s.setCheckFlags c m).readByte a = s.readByte a := rfl

@[simp] theorem State.readByte_setChanged (s : State) (c : Bool) (a : Addr) :
    (s.setChanged c).readByte a = s.readByte a := rfl

@[simp] theorem State.readByte_refuse (s : State) (c : Cause) (a : Addr) : (s.refuse c).readByte a = s.readByte a := rfl

@[simp] theorem State.readByte_actionTaken (s : State) (rest : List HostAction) (a : Addr) :
    (s.actionTaken rest).readByte a = s.readByte a := rfl

/-- After a reset every byte is the free value of that reset. -/
theorem State.readByte_hostReset (s : State) (a : Addr) : s.hostReset.readByte a = Config.imgReset (s.resets + 1) a := rfl

/-- What the two writes of a repair leave. -/
theorem State.readByte_storeCrc (s : State) (v : Half) (a : Addr) :
    (s.storeCrc v).readByte a = if a = 127#8 then highByte v else if a = 126#8 then lowByte v else s.readByte a := by
  unfold State.storeCrc
  split
  · subst_vars
    exact State.readByte_writeByte_same _ _ _
  · rename_i h
    rw [State.readByte_writeByte_other _ _ h]
    split
    · subst_vars
      exact State.readByte_writeByte_same _ _ _
    · rename_i h'
      exact State.readByte_writeByte_other _ _ h'

/-- What a repair leaves. -/
theorem State.readByte_repair (s : State) (c : Bool) (v : Half) (a : Addr) :
    (s.repair c v).readByte a = if c = true then (s.storeCrc v).readByte a else s.readByte a := by
  cases c <;> rfl

/-- A word is its high byte above its low byte. -/
theorem highByte_append_lowByte (v : Half) : highByte v ++ lowByte v = v := by
  refine BitVec.eq_of_getLsbD_eq fun i hi => ?_
  rw [BitVec.getLsbD_append]
  by_cases h : i < 8
  · simp [h, lowByte]
  · simp only [h, if_false, highByte, BitVec.getLsbD_extractLsb]
    have h8 : 8 + (i - 8) = i := by omega
    simp [h8]
    omega

/-- A completed command's response is its `VALUE`, zero-extended. -/
theorem responseWord_ok (v : Half) : responseWord false 0x0#4 v = v.setWidth 32 := by
  refine BitVec.eq_of_getLsbD_eq fun i hi => ?_
  simp only [responseWord, BitVec.getLsbD_append, BitVec.getLsbD_setWidth]
  by_cases h : i < 16
  · simp [h, hi]
  · simp [h]
    rw [BitVec.getLsbD_of_ge _ _ (by omega)]
    simp

/-- The fields of a response word (30_encoding.md R96). -/
theorem responseWord_fields (e : Bool) (c : BitVec 4) (v : Half) :
    (responseWord e c v).getLsbD 31 = e ∧ slice (responseWord e c v) 30 28 = 0#3
    ∧ slice (responseWord e c v) 27 24 = c ∧ slice (responseWord e c v) 23 16 = 0#8
    ∧ slice (responseWord e c v) 15 0 = v := by
  refine ⟨?_, ?_, ?_, ?_, ?_⟩
  case refine_1 =>
    simp only [responseWord, BitVec.getLsbD_append]
    simp
  all_goals
    refine BitVec.eq_of_getLsbD_eq fun i hi => ?_
    simp only [responseWord, slice, BitVec.getLsbD_extractLsb, BitVec.getLsbD_append]
    interval_cases i <;> simp

/-- Within an accepted span an address is never wrapped (20_memory.md R59). -/
theorem spanAddr_toNat {start i len : Nat} (h : start + len ≤ 256) (hi : i < len) :
    (spanAddr start i).toNat = start + i := by
  simp only [spanAddr, BitVec.toNat_ofNat]
  omega

/-- The refusal does what 60_exceptions.md R191 lists, and nothing else. -/
theorem State.refuse_spec (s : State) (c : Cause) : (s.refuse c).err = true
    ∧ (s.refuse c).cause = (if s.err = true then s.cause else c.code)
    ∧ (s.refuse c).responses = s.responses ++ [0x8#4 ++ c.code ++ 0x00#8 ++ 0x0000#16]
    ∧ (s.refuse c).img = s.img := by
  refine ⟨rfl, rfl, ?_, rfl⟩
  cases c <;> rfl

end Sys2Proof.Machine
end

