-- ==== Sys2Proof/Laws/Exec.lean ====
section
/-! SUPPORT. The CRC's rounds one by one, the branches of the meanings that test an operand, and the bytes of a span. -/

namespace Sys2Proof.Machine

/-- One round, as 41_crc16_datapath.md R131 writes it. -/
theorem crcRound_eq (v : Half) : crcRound v = if v.msb then (v <<< 1) ^^^ Config.crcPoly else v <<< 1 := rfl

/-- `n + 1` rounds are one round and then `n`. -/
theorem crcRounds_succ (n : Nat) (v : Half) : crcRounds (n + 1) v = crcRounds n (crcRound v) := by
  simp only [crcRounds, crcRound]
  split <;> rfl

theorem execSpan_accepted (s : State) {start : Addr} {len : BitVec 9} (h : start.toNat + len.toNat ≤ 256) :
    execSpan start len s = .next ((s.setAcc (crc16 (s.spanBytes start.toNat len.toNat) len.toNat)).respond
      (crc16 (s.spanBytes start.toNat len.toNat) len.toNat)) := by
  simp only [execSpan, Config.imgSize]
  rw [if_neg (by omega)]

theorem execSpan_refused (s : State) {start : Addr} {len : BitVec 9} (h : 256 < start.toNat + len.toNat) :
    execSpan start len s = .next (s.refuse .spanRange) := by
  simp only [execSpan, Config.imgSize]
  rw [if_pos (by omega)]

/-- Exactly the register numbers 0 to 4 name a register (60_exceptions.md R194). -/
theorem State.readReg_isSome (s : State) (reg : BitVec 4) : (s.readReg reg).isSome = decide (reg.toNat ≤ 4) := by
  have h : ∀ r : BitVec 4, r = 0#4 ∨ r = 1#4 ∨ r = 2#4 ∨ r = 3#4 ∨ r = 4#4 ∨ r = 5#4 ∨ r = 6#4 ∨ r = 7#4 ∨ r = 8#4
      ∨ r = 9#4 ∨ r = 10#4 ∨ r = 11#4 ∨ r = 12#4 ∨ r = 13#4 ∨ r = 14#4 ∨ r = 15#4 := by decide
  rcases h reg with rfl | rfl | rfl | rfl | rfl | rfl | rfl | rfl | rfl | rfl | rfl | rfl | rfl | rfl | rfl | rfl <;> rfl

theorem execRdr_named (s : State) {reg : BitVec 4} {v : Half} (h : s.readReg reg = some v) :
    execRdr reg s = .next (s.respond v) := by simp [execRdr, h]

theorem execRdr_unnamed (s : State) {reg : BitVec 4} (h : 5 ≤ reg.toNat) : execRdr reg s = .next (s.refuse .badReg) := by
  have hn : s.readReg reg = none := by
    have := s.readReg_isSome reg
    rw [decide_eq_false (by omega)] at this
    simpa using this
  simp [execRdr, hn]

/-- The bytes of a span, as the claims write them. -/
theorem State.spanBytes_eq (s : State) (start n : Nat) : s.spanBytes start n = imageBytes s start n := by
  simp [State.spanBytes, imageBytes, spanAddr, List.ofFn_eq_map, ← List.map_coe_finRange_eq_range]

/-- The computed CRC, as the claims write it (42_spd_check_and_fix.md R163). -/
theorem State.computedCrc_eq (s : State) :
    s.computedCrc = crc16 (imageBytes s 0 (spanLength s.coverage)) (spanLength s.coverage) := by
  simp [State.computedCrc, State.spanBytes_eq]

end Sys2Proof.Machine
end

