-- ==== Sys2Proof/Laws/PerInstr.lean ====
section
/-! SUPPORT. The per-instruction family EncodesToItsRow: the encoded word of a command is selected by a row of the opcode map
that carries the command's own opcode (30_encoding.md R88, R95). -/

namespace Sys2Proof.Laws.EncodesToItsRow

/-- Some row of the opcode map with this command's opcode selects its encoded word, and the word's opcode field is that
opcode. -/
def Statement (i : Instr) : Prop :=
  (∃ r ∈ opRows, r.op = i.opcode ∧ r.selects (encode i) = true) ∧ fieldOp (encode i) = i.opcode

theorem clr : Statement .clr := ⟨⟨opRows[0], by decide, by decide⟩, by decide⟩

theorem upd (imm8 : Byte) : Statement (.upd imm8) := by
  refine ⟨⟨opRows[1], by decide, rfl, ?_⟩, ?_⟩ <;> revert imm8 <;> decide

theorem chk : Statement .chk := ⟨⟨opRows[3], by decide, by decide⟩, by decide⟩

theorem fix : Statement .fix := ⟨⟨opRows[4], by decide, by decide⟩, by decide⟩

theorem rdb (addr : Addr) : Statement (.rdb addr) := by
  refine ⟨⟨opRows[6], by decide, rfl, ?_⟩, ?_⟩ <;> revert addr <;> decide

theorem rdr (reg : BitVec 4) : Statement (.rdr reg) := by
  refine ⟨⟨opRows[7], by decide, rfl, ?_⟩, ?_⟩ <;> revert reg <;> decide

theorem span (start : Addr) (len : BitVec 9) : Statement (.span start len) := by
  refine ⟨⟨opRows[2], by decide, rfl, ?_⟩, ?_⟩
  · simp only [opRows, OpRow.selects, encode, List.getElem_cons_succ, List.getElem_cons_zero, beq_iff_eq]
    refine BitVec.eq_of_getLsbD_eq fun i hi => ?_
    simp only [BitVec.getLsbD_and, BitVec.getLsbD_append]
    interval_cases i <;> simp
  · refine BitVec.eq_of_getLsbD_eq fun i hi => ?_
    simp only [fieldOp, slice, encode, Instr.opcode, BitVec.getLsbD_extractLsb, BitVec.getLsbD_append]
    interval_cases i <;> simp

theorem wrb (addr : Addr) (data : Byte) : Statement (.wrb addr data) := by
  refine ⟨⟨opRows[5], by decide, rfl, ?_⟩, ?_⟩
  · simp only [opRows, OpRow.selects, encode, List.getElem_cons_succ, List.getElem_cons_zero, beq_iff_eq]
    refine BitVec.eq_of_getLsbD_eq fun i hi => ?_
    simp only [BitVec.getLsbD_and, BitVec.getLsbD_append]
    interval_cases i <;> simp
  · refine BitVec.eq_of_getLsbD_eq fun i hi => ?_
    simp only [fieldOp, slice, encode, Instr.opcode, BitVec.getLsbD_extractLsb, BitVec.getLsbD_append]
    interval_cases i <;> simp

end Sys2Proof.Laws.EncodesToItsRow
end

