-- ==== Sys2Proof/Tests/Slice0.lean ====
section
/-! SUPPORT. Tests: expected values from 95_test_vectors.md and the rules named, and, for each statement with hypotheses, a
witness that meets them all. -/

namespace Sys2Proof.Tests

open Sys2Proof Sys2Proof.Machine

/-! ## Helpers -/

/-- The reset state with the first bytes of the image written. -/
def loaded (bytes : List Byte) : State := { State.reset with img := bytes.zipIdx.map fun p => (p.2, p.1) }

/-- The source's example line (95_test_vectors.md V5). -/
def exampleLine : List Byte :=
  [0x98#8, 0x10#8, 0x0B#8, 0x01#8, 0x04#8, 0x19#8, 0x01#8, 0x08#8, 0x0C#8, 0x00#8, 0x3E#8, 0x3E#8, 0x00#8, 0x78#8, 0x00#8, 0x00#8]

/-- Image A of 95_test_vectors.md. -/
def imageA : State := loaded (exampleLine ++ List.replicate 240 0#8)

/-- Image C of 95_test_vectors.md. -/
def imageC : State := loaded (exampleLine ++ List.replicate 110 0#8 ++ [0x81#8, 0x0C#8] ++ List.replicate 128 0#8)

/-- Image Z of 95_test_vectors.md. -/
def imageZ : State := loaded (List.replicate 256 0#8)

/-- Image R of 95_test_vectors.md. -/
def imageR : State := loaded ((List.range 256).map (BitVec.ofNat 8))

/-- The state after a step that answers one. -/
def after (o : Host.Outcome State Fault Refusal) : Option State :=
  match o with
  | .next t => some t
  | .fault _ => none
  | .refused _ => none

/-- The last response, `STATUS` and `CAUSE` after a step. -/
def seen (o : Host.Outcome State Fault Refusal) : Option (List Word × Half × BitVec 4) :=
  (after o).map fun t => (t.responses, t.statusWord, t.cause)

/-! ## Well-formedness: each check refuses an ill-formed term -/

/-- 95_test_vectors.md V31: one must-be-zero bit of each format, and reserved opcodes. -/
theorem test_words_ill_formed :
    [0x00000000#32, 0x90000000#32, 0xF0000000#32, 0xFFFFFFFF#32, 0x10000001#32, 0x20000100#32, 0x28000031#32, 0x31000000#32,
      0x30000200#32, 0x40000001#32, 0x50000100#32, 0x60010000#32, 0x70000001#32, 0x80000010#32].all
        (fun w => !wordWellFormed w) = true := by decide

theorem test_words_well_formed :
    [0x10000000#32, 0x20000031#32, 0x30040005#32, 0x40000000#32, 0x50000000#32, 0x60000603#32, 0x70007F00#32,
      0x80000003#32].all wordWellFormed = true := by decide

/-- R93. -/
theorem test_operands_not_accepted :
    Instr.operandsAccepted (.span 255#8 2#9) = false ∧ Instr.operandsAccepted (.span 0#8 257#9) = false
    ∧ Instr.operandsAccepted (.rdr 5#4) = false ∧ Instr.operandsAccepted (.span 0#8 256#9) = true := by decide

/-- R101, R103, R104: each operand check refuses. -/
theorem test_lines_ill_formed :
    [Line.upd 256, .span 256 0, .span 0 512, .wrb 256 0, .wrb 0 256, .rdb 256, .rdr 16, .crc16 512, .wrh 255 0,
      .wrh 0 65536, .ldimg [1], .ldimg (256 :: List.replicate 255 0), .str [128], .word (2 ^ 32)].all
        (fun l => !l.fits) = true := by decide +kernel

/-! ## Decoding: a word of each command written out from 30_encoding.md R88 (95_test_vectors.md V30) -/

theorem test_decode_clr : decode 0b00010000000000000000000000000000#32 = .ok .clr := by decide
theorem test_decode_upd : decode 0b00100000000000000000000000110001#32 = .ok (.upd 0x31#8) := by decide
theorem test_decode_span : decode 0b00110000100000000000000000010010#32 = .ok (.span 128#8 18#9) := by decide
theorem test_decode_span_longest : decode 0b00110000000000000000000100000000#32 = .ok (.span 0#8 256#9) := by decide
theorem test_decode_chk : decode 0b01000000000000000000000000000000#32 = .ok .chk := by decide
theorem test_decode_fix : decode 0b01010000000000000000000000000000#32 = .ok .fix := by decide
theorem test_decode_wrb : decode 0b01100000000000000111111010101011#32 = .ok (.wrb 126#8 0xAB#8) := by decide
theorem test_decode_rdb : decode 0b01110000000000000111111100000000#32 = .ok (.rdb 127#8) := by decide
theorem test_decode_rdr : decode 0b10000000000000000000000000000100#32 = .ok (.rdr 4#4) := by decide

/-- R94, R199: rejected by name, and illegal before out of range. -/
theorem test_decode_rejects :
    decode 0x90000000#32 = .error (.reservedOpcode 9#4) ∧ decode 0x31FF0002#32 = .error (.mustBeZeroSet 3#4)
    ∧ decode 0x8000001F#32 = .error (.mustBeZeroSet 8#4) := by decide

theorem test_encode_words :
    encode (.span 4#8 5#9) = 0x30040005#32 ∧ encode (.wrb 6#8 3#8) = 0x60000603#32 ∧ encode (.rdb 127#8) = 0x70007F00#32
    ∧ encode (.rdr 3#4) = 0x80000003#32 := by decide

theorem test_table_words :
    decodeTableWord 32 0x20000031 = some (.upd 0x31#8) ∧ decodeTableWord 32 0x00000000 = none
    ∧ decodeTableWord 8 0x1FF = none := by decide

/-! ## The CRC function (95_test_vectors.md V2, V3, V8) -/

theorem test_crc_check_value :
    crc16 [0x31#8, 0x32#8, 0x33#8, 0x34#8, 0x35#8, 0x36#8, 0x37#8, 0x38#8, 0x39#8] 9 = 0x31C3#16 := by decide +kernel

theorem test_crc_descending :
    crc16 [0x39#8, 0x38#8, 0x37#8, 0x36#8, 0x35#8, 0x34#8, 0x33#8, 0x32#8, 0x31#8] 9 = 0x9CAD#16 := by decide +kernel

/-! ## One command at a time -/

/-- V10. -/
theorem test_clr : seen (exec .clr { State.reset with acc := 0x31C3#16 }) = some ([0x00000000#32], 0#16, 0#4) := by decide

/-- V11. -/
theorem test_upd : seen (exec (.upd 0x31#8) State.reset) = some ([0x00002672#32], 0#16, 0#4) := by decide

/-- V11: the byte enters the high byte. -/
theorem test_upd_continues :
    seen (exec (.upd 0xFF#8) { State.reset with acc := 0xFFFF#16 }) = some ([0x0000FF00#32], 0#16, 0#4) := by decide

/-- V12 on image A. -/
theorem test_span : seen (exec (.span 0#8 16#9) imageA) = some ([0x00003F3C#32], 0#16, 0#4) := by decide +kernel

/-- V12: a span inside image R, and V33's refusal. -/
theorem test_span_inside_and_refused :
    seen (exec (.span 128#8 18#9) imageR) = some ([0x0000C6CE#32], 0#16, 0#4)
    ∧ seen (exec (.span 128#8 129#9) imageR) = some ([0x82000000#32], 0x0010#16, 2#4) := by decide +kernel

/-- V21. -/
theorem test_chk :
    (after (exec .chk imageA)).map (fun t => (t.responses, t.statusWord, t.crcStored, t.crcComputed, t.acc))
      = some ([0x00000001#32], 0x0007#16, 0x0000#16, 0x0C81#16, 0x0C81#16) := by decide +kernel

/-- V25: byte 127 is the high byte, and coverage 0 selects 126 bytes. -/
theorem test_chk_byte_order :
    (after (exec .chk imageR)).map (fun t => (t.statusWord, t.crcStored, t.crcComputed))
      = some (0x0005#16, 0x7F7E#16, 0x192D#16) := by decide +kernel

/-- V21. -/
theorem test_fix :
    (after (exec .fix imageA)).map (fun t => (t.responses, t.statusWord, t.readByte 126#8, t.readByte 127#8, t.crcStored))
      = some ([0x00000001#32], 0x000B#16, 0x81#8, 0x0C#8, 0x0C81#16) := by decide +kernel

/-- V23: nothing to repair. -/
theorem test_fix_correct_image : seen (exec .fix imageC) = some ([0x00000000#32], 0x0003#16, 0#4) := by decide +kernel

/-- V14. -/
theorem test_wrb :
    (after (exec (.wrb 126#8 0xAB#8) State.reset)).map (fun t => (t.responses, t.img)) = some ([0#32], [(126, 0xAB#8)]) := by
  decide

/-- V14: a second write to an address wins. -/
theorem test_rdb :
    seen (exec (.rdb 6#8) ((State.reset.writeByte 6#8 2#8).writeByte 6#8 3#8)) = some ([0x00000003#32], 0#16, 0#4) := by decide

/-- R116, U1: a byte never written is the free value, and nothing is refused. -/
theorem test_rdb_never_written :
    exec (.rdb 0#8) State.reset = .next (State.reset.respond ((Config.imgReset 0 0#8).setWidth 16)) := rfl

/-- V15, R31. -/
theorem test_rdr :
    seen (exec (.rdr 3#4) { State.reset with valid := true, cov := true, changed := true })
      = some ([0x0000000B#32], 0x000B#16, 0#4)
    ∧ seen (exec (.rdr 5#4) State.reset) = some ([0x83000000#32], 0x0010#16, 3#4) := by decide

/-- P5: the first cause is kept, and each response carries its own. -/
theorem test_first_cause_kept :
    seen (runCommands [0x00000000#32, 0x30FF0002#32, 0x80000009#32, 0x80000004#32] State.reset)
      = some ([0x81000000#32, 0x82000000#32, 0x83000000#32, 0x00000001#32], 0x0010#16, 1#4) := by decide

/-- The host's word is the next command run. -/
theorem test_step_runs_the_word :
    seen (step (State.reset.withFetchWord 32 0x20000041)) = some ([0x000058E5#32], 0#16, 0#4) := by decide

/-- V35. -/
theorem test_step_reset :
    seen (step { imageA with acc := 0x0C81#16, valid := true, err := true, cause := 2#4, pending := [.reset] })
      = some ([], 0#16, 0#4) := by decide

/-! ## The assembler (30_encoding.md R100 to R105; 95_test_vectors.md V30) -/

/-- The text `UPD '9' ;x`. -/
theorem test_assemble_character :
    assembleTextLine ['U', 'P', 'D', ' ', Char.ofNat 39, '9', Char.ofNat 39, ' ', ';', 'x'] = some [0x20000039#32] := by decide

/-- The text `WRB 126, 0xAB`. -/
theorem test_assemble_hexadecimal :
    assembleTextLine ['W', 'R', 'B', ' ', '1', '2', '6', ',', ' ', '0', 'x', 'A', 'B'] = some [0x60007EAB#32] := by decide

/-- The text `RDR STATUS`. -/
theorem test_assemble_register_name :
    assembleTextLine ['R', 'D', 'R', ' ', 'S', 'T', 'A', 'T', 'U', 'S'] = some [0x80000003#32] := by decide

/-- Two lines, `.word 0x90000000` and `STR "AB"`. -/
theorem test_assemble_text :
    assembleText (['.', 'w', 'o', 'r', 'd', ' ', '0', 'x', '9', '0', '0', '0', '0', '0', '0', '0'] ++ [Char.ofNat 10]
      ++ ['S', 'T', 'R', ' ', Char.ofNat 34, 'A', 'B', Char.ofNat 34])
      = some [0x90000000#32, 0x20000041#32, 0x20000042#32] := by decide

/-- V14, `WRH 126, 0x0C81`. -/
theorem test_assemble_wrh : assemble (.wrh 126 0x0C81) = some [0x60007E81#32, 0x60007F0C#32] := by decide

/-! ## Witnesses: the hypotheses of each statement are met, at boundary values -/

theorem test_witness_DecodeEncodeRoundTrip :
    ∃ r ∈ opRows, ∃ q ∈ opRows, r.selects 0x30FF0100#32 = true ∧ q.selects 0x30FF0100#32 = true
      ∧ slice r.pat 31 28 = slice q.pat 31 28 := ⟨opRows[2], by decide, opRows[2], by decide, by decide⟩

theorem test_witness_EncodeDecodeRoundTrip : decode 0x30FF01FF#32 = .ok (.span 255#8 511#9) := by decide

theorem test_witness_ReservedOpcodesAreRefused :
    slice 0x0FFFFFFF#32 31 28 = 0x0#4 ∧ 9 ≤ (slice 0x90000000#32 31 28).toNat ∧ 9 ≤ (slice 0xF0000000#32 31 28).toNat := by
  decide

theorem test_witness_MustBeZeroBitsAreRefused :
    [(0x10000001#32, 0x1#4, 0x0FFFFFFF#32), (0x18000000#32, 0x1#4, 0x0FFFFFFF#32), (0x20000100#32, 0x2#4, 0x0FFFFF00#32),
      (0x30000200#32, 0x3#4, 0x0F00FE00#32), (0x31000000#32, 0x3#4, 0x0F00FE00#32), (0x40000001#32, 0x4#4, 0x0FFFFFFF#32),
      (0x58000000#32, 0x5#4, 0x0FFFFFFF#32), (0x60010000#32, 0x6#4, 0x0FFF0000#32), (0x70000080#32, 0x7#4, 0x0FFF00FF#32),
      (0x80000010#32, 0x8#4, 0x0FFFFFF0#32)].all
        (fun p => slice p.1 31 28 == p.2.1 && p.1 &&& p.2.2 != 0#32) = true := by decide

theorem test_witness_OnlyTheTwoOperandConditionsRefuse :
    (255#8).toNat + (2#9).toNat > 256 ∧ (0#8).toNat + (511#9).toNat > 256 ∧ 5 ≤ (5#4).toNat ∧ 5 ≤ (15#4).toNat
    ∧ (∀ start len, Instr.span 255#8 1#9 = .span start len → start.toNat + len.toNat ≤ 256)
    ∧ (∀ reg, Instr.rdr 4#4 = .rdr reg → reg.toNat < 5) := by
  refine ⟨by decide, by decide, by decide, by decide, ?_, ?_⟩
  · intro start len h
    cases h
    decide
  · intro reg h
    cases h
    decide

theorem test_witness_ResponseWordOfEveryCommand :
    commandRefused 0x3000012C#32 = true ∧ commandRefused 0x90000000#32 = true ∧ commandRefused 0x80000004#32 = false
    ∧ decode 0x80000004#32 = .ok (.rdr 4#4) := by decide

theorem test_witness_StepRunsTheDecodedCommand :
    ∃ (s : State) (rest : List HostAction), s.pending = .command 0x40000000#32 :: rest ∧ decode 0x40000000#32 = .ok .chk :=
  ⟨State.reset.withFetchWord 32 0x40000000, [], by decide, by decide⟩

theorem test_witness_StepWithNothingPending : State.reset.pending = [] := rfl

/-- For ResetStepEffect and the second half of OnlyResetClears. -/
theorem test_witness_ResetStepEffect : ∃ (s : State) (rest : List HostAction), s.pending = .reset :: rest :=
  ⟨{ imageA with pending := [.reset, .reset] }, [.reset], rfl⟩

theorem test_witness_ResetStateReadsZero : (4#4).toNat ≤ 4 := by decide

theorem test_witness_EveryStepCompletes :
    ∃ (s : State) (w : Word) (rest : List HostAction), s.pending = .command w :: rest :=
  ⟨State.reset.issueNext 0xFFFFFFFF#32, 0xFFFFFFFF#32, [], rfl⟩

/-- The illegal words of ClrEffect, UpdEffect, SpanEffect, ChkEffect, FixEffect, WrbEffect, RdbEffect and RdrEffect. -/
theorem test_witness_illegal_words_of_each_opcode :
    slice 0x10000001#32 31 28 = 0x1#4
    ∧ (slice 0x20000100#32 31 28 = 0x2#4 ∧ slice 0x20000100#32 27 8 ≠ 0#20)
    ∧ (slice 0x31000000#32 31 28 = 0x3#4 ∧ slice 0x31000000#32 27 24 ≠ 0#4)
    ∧ (slice 0x30000200#32 31 28 = 0x3#4 ∧ slice 0x30000200#32 15 9 ≠ 0#7)
    ∧ slice 0x40000001#32 31 28 = 0x4#4 ∧ slice 0x50000100#32 31 28 = 0x5#4
    ∧ (slice 0x60010000#32 31 28 = 0x6#4 ∧ slice 0x60010000#32 27 16 ≠ 0#12)
    ∧ (slice 0x70010000#32 31 28 = 0x7#4 ∧ slice 0x70010000#32 27 16 ≠ 0#12)
    ∧ (slice 0x70000001#32 31 28 = 0x7#4 ∧ slice 0x70000001#32 7 0 ≠ 0#8)
    ∧ (slice 0x80000010#32 31 28 = 0x8#4 ∧ slice 0x80000010#32 27 4 ≠ 0#24) := by decide

/-- For SpanEffect and SpanEqualsStream: the boundary of the range test, both sides, and the empty span. -/
theorem test_witness_SpanEffect :
    (255#8).toNat + (1#9).toNat ≤ 256 ∧ (0#8).toNat + (256#9).toNat ≤ 256 ∧ (255#8).toNat + (0#9).toNat ≤ 256
    ∧ (1#8).toNat + (256#9).toNat > 256 := by decide

/-- For ChkEffect, FixEffect and FixLaws: an image whose two CRCs agree and one whose do not. -/
theorem test_witness_FixEffect :
    imageC.readByte 127#8 ++ imageC.readByte 126#8 = crc16 (imageBytes imageC 0 117) 117
    ∧ imageA.readByte 127#8 ++ imageA.readByte 126#8 ≠ crc16 (imageBytes imageA 0 117) 117
    ∧ (imageA.readByte 0#8).getLsbD 7 = true ∧ (imageR.readByte 0#8).getLsbD 7 = false := by decide +kernel

/-- WrbEffect, FixEffect and FixLaws speak of other addresses. -/
theorem test_witness_WrbEffect : (125#8 : Addr) ≠ 126#8 ∧ (128#8 : Addr) ≠ 127#8 ∧ (125#8 : Addr) ≠ 127#8 ∧ (128#8 : Addr) ≠ 126#8 := by
  decide

theorem test_witness_RdrEffect :
    (4#4, (0#16 : Half)) ∈ [(0#4, State.reset.acc), (1#4, State.reset.crcStored), (2#4, State.reset.crcComputed),
      (3#4, BitVec.ofNat 16 0), (4#4, BitVec.ofNat 16 State.reset.cause.toNat)] ∧ 5 ≤ (5#4).toNat := by decide

theorem test_witness_Crc16Definition :
    [0x31#8, 0x32#8][1]? = some 0x32#8 ∧ ∀ k, k < 1 → ([0x31#8, 0x32#8] : List Byte)[k]? = ([0x31#8] : List Byte)[k]? := by
  refine ⟨by decide, fun k hk => ?_⟩
  interval_cases k
  rfl

theorem test_witness_CrcResidueIsZero : (0x58E5#16 : Half) = crc16 [0x41#8] [0x41#8].length := by decide

/-- WRB, RDB, RDR and an illegal word among the UPDs. -/
theorem test_witness_StreamedCrc :
    ∀ w ∈ [0x20000031#32, 0x60007EAB#32, 0x70000000#32, 0x80000005#32, 0x00000000#32, 0x20000032#32], keepsStream w = true :=
  List.all_eq_true.1 (by decide)

theorem test_witness_ComputedCrcIgnoresUncoveredBytes :
    spanLength imageA.coverage ≤ (117#8).toNat ∧ spanLength imageR.coverage ≤ (126#8).toNat := by decide +kernel

theorem test_witness_ChkSnapshotStays :
    ∀ w ∈ [0x60007EFF#32, 0x30000000#32, 0x10000000#32, 0x90000000#32], keepsSnapshot w = true :=
  List.all_eq_true.1 (by decide)

/-- Byte 1 and, with the coverage bit kept, byte 0. -/
theorem test_witness_ChangedCoveredByteIsDetected :
    imageZ.Consistent ∧ (125#8).toNat < spanLength imageZ.coverage ∧ (1#8 : Byte) ≠ imageZ.readByte 125#8
    ∧ ((125#8 : Addr) = 0#8 → (1#8 : Byte).getLsbD 7 = imageZ.coverage)
    ∧ (1#8 : Byte) ≠ imageZ.readByte 0#8 ∧ (1#8 : Byte).getLsbD 7 = imageZ.coverage := by decide +kernel

theorem test_witness_StepKeepsLaws :
    ∃ s t : State, s.Inv ∧ s.err = true ∧ step s = .next t :=
  ⟨{ State.reset with err := true, cause := 3#4, pending := [.command 0#32] }, _, by decide, rfl, rfl⟩

/-- A FIX that changes nothing clears CHANGED. -/
theorem test_witness_OnlyResetClears :
    (after (step { imageC with changed := true, valid := true, pending := [.command 0x50000000#32] })).map
      (fun t => (t.changed, t.valid)) = some (false, true) := by decide +kernel

theorem test_witness_WriteMatrix :
    (Instr.rdb 0#8).opcode ∉ [0x1#4, 0x2#4, 0x3#4, 0x4#4, 0x5#4] ∧ Instr.rdb 0#8 ≠ .chk ∧ Instr.rdb 0#8 ≠ .fix
    ∧ (Instr.rdb 0#8).operandsAccepted = true ∧ (Instr.rdr 15#4).operandsAccepted = false
    ∧ (125#8 : Addr) ∉ bytesWritten .fix imageA := by decide +kernel

theorem test_witness_DefinedReadsIgnoreTheResetImage :
    DefinedReads .fix imageA ∧ DefinedReads (.span 255#8 1#9) imageA
    ∧ DefinedReads (.rdb 6#8) (State.reset.writeByte 6#8 2#8) := by decide +kernel

theorem test_witness_FlagsDoNotSteerCommands : Instr.rdr 2#4 ≠ .rdr 3#4 := by decide

theorem test_witness_ReadReturnsTheLastWrite :
    (∀ w ∈ [0x60007D00#32, 0x40000000#32, 0x30FF0002#32], keepsByte 126#8 w = true)
    ∧ keepsByte 125#8 0x50000000#32 = true ∧ keepsByte 126#8 0x50000000#32 = false :=
  ⟨List.all_eq_true.1 (by decide), by decide⟩

theorem test_witness_RefusalDoesNotDisturbTheNextCommand :
    decode 0x80000002#32 ≠ .ok (.rdr 3#4) ∧ decode 0x80000002#32 ≠ .ok (.rdr 4#4) := by decide

theorem test_witness_CauseIsTheFirstRefusals : State.reset.err = false ∧ State.reset.cause = 0#4 := by decide

theorem test_witness_AssemblerEmitsLegalWords :
    (∀ n, Line.crc16 117 ≠ .word n) ∧ assemble (.crc16 117) = some [0x30000075#32] :=
  ⟨fun _ h => (by cases h), by decide⟩

theorem test_witness_WrhStoresLittleEndian : (254 : Nat) ≤ 254 ∧ (126 : Nat) ≤ 254 ∧ (65535 : Nat) < 65536 := by decide

theorem test_witness_LdimgThenDump :
    (List.replicate 256 255).length = 256 ∧ ∀ b ∈ List.replicate 256 255, b < 256 :=
  ⟨List.length_replicate, fun b hb => by rw [List.eq_of_mem_replicate hb]; decide⟩

theorem test_witness_CrcPseudoInstructions : (256 : Nat) ≤ 256 ∧ ∀ c ∈ [0x31, 127], c < 128 := by decide

end Sys2Proof.Tests
end

/-! ## One step of the machine: what a pending command word does (00_scope.md R9, R12) -/

namespace Sys2Proof.Machine

/-- A legal word runs the command it decodes to (00_scope.md R12). -/
theorem command_of_decode_ok {w : Word} {i : Instr} (h : decode w = .ok i) (s : State) : command w s = exec i s := by
  simp only [command, h]

/-- A pending command word is taken off the host's list and issued (10_state.md R27; log entry 3). -/
theorem step_of_pending_command {s : State} {w : Word} {rest : List HostAction} (h : s.pending = .command w :: rest) :
    step s = command w (s.actionTaken rest) := by
  simp only [step, h]

/-- Settles O12: `step` issues the pending word, and `command` runs what it decodes to. -/
theorem stepRunsTheDecodedCommand : Obligations.StepRunsTheDecodedCommand := by
  intro s w rest i hpending hdecode
  calc step s
      = command w (s.actionTaken rest) := step_of_pending_command hpending
    _ = exec i (s.actionTaken rest) := command_of_decode_ok hdecode _
    _ = exec i { s with pending := rest } := rfl

end Sys2Proof.Machine

/-! ## What a command can do: every answer of `exec` and of `command` (00_scope.md R12; 60_exceptions.md R191) -/

namespace Sys2Proof.Machine

/-- The state CHK answers (42_spd_check_and_fix.md R166). -/
def State.checked (s : State) : State :=
  (((s.setAcc s.computedCrc).setSnapshot s.storedCrc s.computedCrc).setCheckFlags s.coverage
    (s.storedCrc != s.computedCrc)).respond (flagValue (s.storedCrc != s.computedCrc))

/-- The state FIX answers (42_spd_check_and_fix.md R170). -/
def State.fixed (s : State) : State :=
  (((((s.repair (s.storedCrc != s.computedCrc) s.computedCrc).setAcc s.computedCrc).setSnapshot s.computedCrc
    s.computedCrc).setCheckFlags s.coverage false).setChanged (s.storedCrc != s.computedCrc)).respond
    (flagValue (s.storedCrc != s.computedCrc))

theorem exec_chk (s : State) : exec .chk s = .next s.checked := rfl

theorem exec_fix (s : State) : exec .fix s = .next s.fixed := rfl

/-- `ExecAnswers s i t`: from `s`, the command `i` may answer `t`. One case for each way a command ends. -/
inductive ExecAnswers (s : State) : Instr → State → Prop
  /-- The operands are not accepted (30_encoding.md R93). -/
  | refused {i : Instr} (c : Cause) (hrej : i.operandsAccepted = false) (hcode : c.code = Instr.operandCause i) :
      ExecAnswers s i (s.refuse c)
  /-- CLR, UPD and SPAN load the accumulator and answer it. -/
  | loadsAcc {i : Instr} (v : Half) (hop : i.opcode ∈ [0x1#4, 0x2#4, 0x3#4]) (hacc : i.operandsAccepted = true) :
      ExecAnswers s i ((s.setAcc v).respond v)
  /-- RDB and RDR only answer. -/
  | reads {i : Instr} (hop : i.opcode ∈ [0x7#4, 0x8#4]) (hacc : i.operandsAccepted = true) :
      ExecAnswers s i (s.respond (resultValue i s))
  | writes (addr : Addr) (data : Byte) : ExecAnswers s (.wrb addr data) ((s.writeByte addr data).respond 0x0000#16)
  | checks : ExecAnswers s .chk s.checked
  | fixes : ExecAnswers s .fix s.fixed

theorem execSpan_answers (s : State) (start : Addr) (len : BitVec 9) :
    ∃ t, execSpan start len s = .next t ∧ ExecAnswers s (.span start len) t := by
  by_cases h : start.toNat + len.toNat ≤ 256
  · exact ⟨_, execSpan_accepted s h, .loadsAcc _ (by simp [Instr.opcode]) (by simpa [Instr.operandsAccepted] using h)⟩
  · exact ⟨_, execSpan_refused s (by omega), .refused _ (by simpa [Instr.operandsAccepted] using h)
      (by simp [Instr.operandCause, h, Cause.code])⟩

theorem execRdr_answers (s : State) (reg : BitVec 4) :
    ∃ t, execRdr reg s = .next t ∧ ExecAnswers s (.rdr reg) t := by
  by_cases h : reg.toNat ≤ 4
  · obtain ⟨v, hv⟩ : ∃ v, s.readReg reg = some v := Option.isSome_iff_exists.1 (by simpa [State.readReg_isSome] using h)
    have hval : resultValue (.rdr reg) s = v := by simp [resultValue, hv]
    exact ⟨_, hval ▸ execRdr_named s hv, .reads (by simp [Instr.opcode]) (by simpa [Instr.operandsAccepted] using h)⟩
  · exact ⟨_, execRdr_unnamed s (by omega), .refused _ (by simpa [Instr.operandsAccepted] using h)
      (by simp [Instr.operandCause, h, Cause.code])⟩

/-- Every command completes, in one of the ways of `ExecAnswers`. -/
theorem exec_answers (i : Instr) (s : State) : ∃ t, exec i s = .next t ∧ ExecAnswers s i t := by
  cases i with
  | clr => exact ⟨_, rfl, .loadsAcc _ (by decide) rfl⟩
  | upd imm8 => exact ⟨_, rfl, .loadsAcc _ (by simp [Instr.opcode]) rfl⟩
  | span start len => exact execSpan_answers s start len
  | chk => exact ⟨_, exec_chk s, .checks⟩
  | fix => exact ⟨_, exec_fix s, .fixes⟩
  | wrb addr data => exact ⟨_, rfl, .writes addr data⟩
  | rdb addr => exact ⟨_, rfl, .reads (by simp [Instr.opcode]) rfl⟩
  | rdr reg => exact execRdr_answers s reg

/-- Only a refusal writes `ERR` and `CAUSE` (10_state.md R26). -/
theorem ExecAnswers.sameErrors {s t : State} {i : Instr} (h : ExecAnswers s i t) (hacc : i.operandsAccepted = true) :
    SameErrors s t := by
  cases h with
  | refused c hrej hcode => simp [hacc] at hrej
  | _ => exact ⟨rfl, rfl⟩

/-- A command whose operands are not accepted can only be refused, with its operands' cause. -/
theorem ExecAnswers.eq_refuse {s t : State} {i : Instr} (h : ExecAnswers s i t) (hrej : i.operandsAccepted = false) :
    ∃ c : Cause, c.code = Instr.operandCause i ∧ t = s.refuse c := by
  cases h with
  | refused c _ hcode => exact ⟨c, hcode, rfl⟩
  | loadsAcc _ _ hacc => simp [hacc] at hrej
  | reads _ hacc => simp [hacc] at hrej
  | writes => cases hrej
  | checks => cases hrej
  | fixes => cases hrej

/-- What `command` can do with any word: refuse it with its own cause (60_exceptions.md R191), or answer as the command it
encodes, whose operands are then accepted. -/
theorem command_cases (w : Word) (s : State) :
    (∃ c : Cause, commandRefused w = true ∧ c.code = refusalCode w ∧ command w s = .next (s.refuse c))
    ∨ ∃ i t, commandRefused w = false ∧ i.operandsAccepted = true ∧ command w s = .next t ∧ ExecAnswers s i t := by
  cases hd : decode w with
  | error why =>
    exact .inl ⟨.illegalCmd, by simp [commandRefused, hd], by simp [refusalCode, hd, Cause.code], by simp [command, hd]⟩
  | ok i =>
    obtain ⟨t, ht, hans⟩ := exec_answers i s
    have hcmd : command w s = .next t := (command_of_decode_ok hd s).trans ht
    cases hacc : i.operandsAccepted with
    | false =>
      obtain ⟨c, hcode, rfl⟩ := hans.eq_refuse hacc
      exact .inl ⟨c, by simp [commandRefused, hd, hacc], by simp [refusalCode, hd, hcode], hcmd⟩
    | true => exact .inr ⟨i, t, by simp [commandRefused, hd, hacc], hacc, hcmd, hans⟩

/-- With no action pending the engine waits (70_reset_and_hazards.md R232). -/
theorem step_of_nothing_pending {s : State} (h : s.pending = []) : step s = .next s := by
  simp only [step, h]

/-- A pending `reset()` is taken off the host's list and done (70_reset_and_hazards.md R220). -/
theorem step_of_pending_reset {s : State} {rest : List HostAction} (h : s.pending = .reset :: rest) :
    step s = .next (s.actionTaken rest).hostReset := by
  simp only [step, h]

/-- A property that every command keeps holds after every run (70_reset_and_hazards.md R233). -/
theorem runCommands_keeps {P : State → Prop} (hcommand : ∀ w s, P s → ∃ t, command w s = .next t ∧ P t)
    (ws : List Word) (s : State) (hs : P s) : ∃ t, runCommands ws s = .next t ∧ P t := by
  induction ws generalizing s with
  | nil => exact ⟨s, rfl, hs⟩
  | cons w ws ih =>
    obtain ⟨t, ht, hP⟩ := hcommand w s hs
    simpa only [runCommands, ht] using ih t hP

end Sys2Proof.Machine

/-! ## The laws of the state (10_state.md R41) -/

namespace Sys2Proof.Machine

/-- Law (e): bits 15 to 5 of STATUS are 0 whatever the flags are. -/
theorem State.statusWord_high_bits (s : State) : s.statusWord.extractLsb 15 5 = 0#11 := by
  unfold State.statusWord
  generalize s.err = e, s.changed = c, s.mismatch = m, s.cov = k, s.valid = v
  revert e c m k v
  decide

/-- A refusal sets `ERR` and leaves a named cause, the first one (law (d); 60_exceptions.md R192). -/
theorem State.refuse_inv {s : State} (h : s.Inv) (c : Cause) : (s.refuse c).Inv := by
  obtain ⟨⟨hmismatch, hvalid, hchanged, herr, hstatus⟩, hcause, hwf⟩ := h
  have hfirst : (s.refuse c).cause ≠ 0#4 ∧ (s.refuse c).cause.toNat ≤ 3 := by
    show (if s.err = true then s.cause else c.code) ≠ 0#4 ∧ (if s.err = true then s.cause else c.code).toNat ≤ 3
    split
    case isTrue he => exact ⟨fun h0 => by simp [herr.2 h0] at he, hcause⟩
    case isFalse => cases c <;> decide
  exact ⟨⟨hmismatch, hvalid, hchanged, by simpa using hfirst.1, State.statusWord_high_bits _⟩, hfirst.2, hwf⟩

theorem State.checked_inv {s : State} (h : s.Inv) : s.checked.Inv := by
  obtain ⟨⟨_, _, _, herr, _⟩, hcause, hwf⟩ := h
  exact ⟨⟨rfl, fun hv => (nomatch hv), fun _ => rfl, herr, State.statusWord_high_bits _⟩, hcause, hwf⟩

theorem State.repair_wf (s : State) (c : Bool) (v : Half) (h : Memory.wf s.img = true) :
    Memory.wf (s.repair c v).img = true := by
  cases c with
  | true => exact s.storeCrc_wf v h
  | false => exact h

theorem State.fixed_inv {s : State} (h : s.Inv) : s.fixed.Inv := by
  obtain ⟨⟨_, _, _, herr, _⟩, hcause, hwf⟩ := h
  have hagree : s.fixed.mismatch = (s.fixed.crcStored != s.fixed.crcComputed) := (bne_self_eq_false _).symm
  exact ⟨⟨hagree, fun hv => (nomatch hv), fun _ => rfl, herr, State.statusWord_high_bits _⟩, hcause, s.repair_wf _ _ hwf⟩

/-- Every command keeps the invariant. -/
theorem ExecAnswers.inv {s t : State} {i : Instr} (h : ExecAnswers s i t) (hs : s.Inv) : t.Inv := by
  cases h with
  | refused c => exact State.refuse_inv hs c
  | loadsAcc v => exact hs
  | reads => exact hs
  | writes addr data =>
    obtain ⟨hlaws, hcause, hwf⟩ := hs
    exact ⟨hlaws, hcause, s.writeByte_wf addr data hwf⟩
  | checks => exact State.checked_inv hs
  | fixes => exact State.fixed_inv hs

/-- Every word, legal or not, keeps the invariant. -/
theorem command_keeps_inv (w : Word) (s : State) (hs : s.Inv) : ∃ t, command w s = .next t ∧ t.Inv := by
  obtain ⟨c, -, -, hc⟩ | ⟨i, t, -, -, ht, hans⟩ := command_cases w s
  · exact ⟨_, hc, State.refuse_inv hs c⟩
  · exact ⟨t, ht, hans.inv hs⟩

/-- Settles O40: with every register and flag 0 and no byte listed, each law holds as it stands. -/
theorem lawsHoldAtReset : Obligations.LawsHoldAtReset := by
  unfold Obligations.LawsHoldAtReset
  decide

/-- The invariant does not read the host's lists or the reset count, the only fields that tell `reset()` from power-on. -/
theorem State.hostReset_inv (s : State) : s.hostReset.Inv := lawsHoldAtReset

/-- Settles O41: an idle step and a `reset()` are immediate; a command word keeps the invariant by `command_keeps_inv`. -/
theorem stepKeepsLaws : Obligations.StepKeepsLaws := by
  intro s t hs hstep
  match hp : s.pending with
  | [] =>
    cases (step_of_nothing_pending hp).symm.trans hstep
    exact hs
  | .reset :: rest =>
    cases (step_of_pending_reset hp).symm.trans hstep
    exact State.hostReset_inv _
  | .command w :: rest =>
    obtain ⟨u, hu, hinv⟩ := command_keeps_inv w (s.actionTaken rest) hs
    cases ((step_of_pending_command hp).trans hu).symm.trans hstep
    exact hinv

/-- Settles O42: the invariant holds after any reset, and every command keeps it. -/
theorem reachableStatesObeyLaws : Obligations.ReachableStatesObeyLaws := by
  have hrun : ∀ (ws : List Word) (s : State), s.Inv → ∃ t, runCommands ws s = .next t ∧ t.Laws := by
    intro ws s hs
    obtain ⟨t, ht, hlaws, -, -⟩ := runCommands_keeps command_keeps_inv ws s hs
    exact ⟨t, ht, hlaws⟩
  exact ⟨fun ws => hrun ws _ lawsHoldAtReset, fun s ws => hrun ws _ s.hostReset_inv⟩

/-- Settles O15: each of the five registers, the flags and the empty list of written bytes, by evaluation. -/
theorem resetStateReadsZero : Obligations.ResetStateReadsZero := by
  refine ⟨?_, rfl, rfl, rfl, rfl, rfl, fun a => ⟨rfl, rfl⟩⟩
  decide

end Sys2Proof.Machine

/-! ## What commands write, and what they do not depend on (10_state.md R26, R28; 20_memory.md R56) -/

namespace Sys2Proof.Machine

/-- FIX writes image bytes only at the addresses `bytesWritten` lists. -/
theorem State.readByte_fixed_of_not_written (s : State) {a : Addr} (h : a ∉ bytesWritten .fix s) :
    s.fixed.readByte a = s.readByte a := by
  show (s.repair (s.storedCrc != s.computedCrc) s.computedCrc).readByte a = s.readByte a
  rw [State.readByte_repair]
  split
  case isTrue hdiff =>
    have ha : a ≠ 126#8 ∧ a ≠ 127#8 := by simpa [bytesWritten, bne_iff_ne.1 hdiff] using h
    rw [State.readByte_storeCrc, if_neg ha.2, if_neg ha.1]
  case isFalse => rfl

/-- Every command writes image bytes only at the addresses `bytesWritten` lists (20_memory.md R56). -/
theorem ExecAnswers.readByte_of_not_written {s t : State} {i : Instr} (h : ExecAnswers s i t) {a : Addr}
    (ha : a ∉ bytesWritten i s) : t.readByte a = s.readByte a := by
  cases h with
  | writes addr data => exact s.readByte_writeByte_other data (by simpa [bytesWritten] using ha)
  | fixes => exact s.readByte_fixed_of_not_written ha
  | _ => rfl

theorem ExecAnswers.sameHostSide {s t : State} {i : Instr} (h : ExecAnswers s i t) : SameHostSide s t := by
  cases h <;> exact ⟨rfl, rfl⟩

/-- Only CLR, UPD, SPAN, CHK and FIX write `ACC`, and none does when it is refused. -/
theorem ExecAnswers.acc_eq {s t : State} {i : Instr} (h : ExecAnswers s i t)
    (hi : i.opcode ∉ [0x1#4, 0x2#4, 0x3#4, 0x4#4, 0x5#4] ∨ i.operandsAccepted = false) : t.acc = s.acc := by
  cases h with
  | loadsAcc v hop hacc =>
    have hop' : i.opcode ∈ [0x1#4, 0x2#4, 0x3#4, 0x4#4, 0x5#4] := List.mem_append_left [0x4#4, 0x5#4] hop
    simp [hop', hacc] at hi
  | checks => simp [Instr.opcode, Instr.operandsAccepted] at hi
  | fixes => simp [Instr.opcode, Instr.operandsAccepted] at hi
  | _ => rfl

/-- Only CHK and FIX write the result registers and their flags. -/
theorem ExecAnswers.sameResults {s t : State} {i : Instr} (h : ExecAnswers s i t) (hchk : i ≠ .chk) (hfix : i ≠ .fix) :
    SameResults s t := by
  cases h with
  | checks => exact absurd rfl hchk
  | fixes => exact absurd rfl hfix
  | _ => exact ⟨rfl, rfl, rfl, rfl, rfl, rfl⟩

theorem ExecAnswers.changed_eq {s t : State} {i : Instr} (h : ExecAnswers s i t) (hfix : i ≠ .fix) :
    t.changed = s.changed := by
  by_cases hchk : i = .chk
  · subst hchk
    cases h <;> rfl
  · obtain ⟨-, -, -, -, -, hchanged⟩ := h.sameResults hchk hfix
    exact hchanged

/-- Settles O44: each column of the matrix is one frame lemma about `ExecAnswers`. -/
theorem writeMatrix : Obligations.WriteMatrix := by
  intro i s
  obtain ⟨t, ht, hans⟩ := exec_answers i s
  refine ⟨t, ht, fun hop => hans.acc_eq (.inl hop), fun hchk hfix => ?_, hans.changed_eq, hans.sameErrors,
    fun hrej => hans.acc_eq (.inr hrej), fun a => hans.readByte_of_not_written, hans.sameHostSide⟩
  obtain ⟨hstored, hcomputed, hvalid, hcov, hmismatch, -⟩ := hans.sameResults hchk hfix
  exact ⟨hstored, hcomputed, hvalid, hcov, hmismatch⟩

/-- `s` with the flags VALID, COV, MISMATCH and CHANGED set to any values. -/
def State.setFlags (s : State) (valid cov mismatch changed : Bool) : State :=
  { s with valid := valid, cov := cov, mismatch := mismatch, changed := changed }

/-- A register other than STATUS shows no flag (10_state.md R31). -/
theorem State.readReg_setFlags (s : State) (valid cov mismatch changed : Bool) {reg : BitVec 4} (h : reg ≠ 3#4) :
    (s.setFlags valid cov mismatch changed).readReg reg = s.readReg reg := by
  unfold State.readReg
  split
  case h_4 => exact absurd rfl h
  all_goals rfl

/-- `u` is `t` but for the flags VALID, COV, MISMATCH and CHANGED. -/
def SameButFlags (t u : State) : Prop := u = t.setFlags u.valid u.cov u.mismatch u.changed

/-- Apart from RDR of STATUS, a command answers states that differ in the four flags alike, but for those flags. -/
theorem exec_setFlags (i : Instr) (s : State) (valid cov mismatch changed : Bool) (hi : i ≠ .rdr 3#4) :
    ∃ t u, exec i s = .next t ∧ exec i (s.setFlags valid cov mismatch changed) = .next u ∧ SameButFlags t u := by
  cases i with
  | clr => exact ⟨_, _, rfl, rfl, rfl⟩
  | upd imm8 => exact ⟨_, _, rfl, rfl, rfl⟩
  | span start len =>
    by_cases h : start.toNat + len.toNat ≤ 256
    · exact ⟨_, _, execSpan_accepted s h, execSpan_accepted _ h, rfl⟩
    · exact ⟨_, _, execSpan_refused s (by omega), execSpan_refused _ (by omega), rfl⟩
  | chk => exact ⟨_, _, exec_chk s, exec_chk _, rfl⟩
  | fix => exact ⟨_, _, exec_fix s, exec_fix _, rfl⟩
  | wrb addr data => exact ⟨_, _, rfl, rfl, rfl⟩
  | rdb addr => exact ⟨_, _, rfl, rfl, rfl⟩
  | rdr reg =>
    have hread := s.readReg_setFlags valid cov mismatch changed (reg := reg) fun h => hi (h ▸ rfl)
    cases hv : s.readReg reg with
    | some v => exact ⟨_, _, execRdr_named s hv, execRdr_named _ (hread.trans hv), rfl⟩
    | none =>
      have hreg : 4 < reg.toNat := by simpa [hv] using s.readReg_isSome reg
      exact ⟨_, _, execRdr_unnamed s hreg, execRdr_unnamed _ hreg, rfl⟩

/-- Settles O46: the four flags are read by RDR of STATUS alone, and that command only answers. -/
theorem flagsDoNotSteerCommands : Obligations.FlagsDoNotSteerCommands := by
  intro i s valid cov mismatch changed
  by_cases hi : i = .rdr 3#4
  · subst hi
    exact ⟨_, _, rfl, rfl, rfl, rfl, rfl, rfl, rfl, rfl, fun h => absurd rfl h⟩
  · obtain ⟨t, u, ht, hu, hsame⟩ := exec_setFlags i s valid cov mismatch changed hi
    unfold SameButFlags at hsame
    rw [hsame] at hu
    exact ⟨t, _, ht, hu, rfl, rfl, rfl, rfl, rfl, rfl, fun _ => rfl⟩

end Sys2Proof.Machine

/-! ## CAUSE along a run: the first refusal's cause code (10_state.md R37) -/

namespace Sys2Proof.Machine

/-- Once `ERR` is set, no command, refused or not, changes `CAUSE` (60_exceptions.md R191). -/
theorem command_keeps_first_cause (c : BitVec 4) (w : Word) (s : State) (hs : s.err = true ∧ s.cause = c) :
    ∃ t, command w s = .next t ∧ t.err = true ∧ t.cause = c := by
  obtain ⟨herr, hcause⟩ := hs
  obtain ⟨d, -, -, hd⟩ | ⟨i, t, -, hacc, ht, hans⟩ := command_cases w s
  · obtain ⟨hset, hkept, -, -⟩ := s.refuse_spec d
    exact ⟨_, hd, hset, by rw [hkept, if_pos herr, hcause]⟩
  · obtain ⟨herr', hcause'⟩ := hans.sameErrors hacc
    exact ⟨t, ht, herr'.trans herr, hcause'.trans hcause⟩

/-- Settles O50, by induction on the list: the words before the first refused one leave ERR and CAUSE at 0, it records its
code, and the rest of the run keeps that code. -/
theorem causeIsTheFirstRefusals : Obligations.CauseIsTheFirstRefusals := by
  intro ws
  induction ws with
  | nil => exact fun s _ hcause => ⟨s, rfl, hcause⟩
  | cons w ws ih =>
    intro s herr hcause
    obtain ⟨c, hrefused, hcode, hc⟩ | ⟨i, u, hrefused, hacc, hu, hans⟩ := command_cases w s
    · have hrecorded : (s.refuse c).cause = refusalCode w := by simp [State.refuse_cause, herr, hcode]
      obtain ⟨t, ht, -, hkept⟩ := runCommands_keeps (command_keeps_first_cause _) ws (s.refuse c) ⟨rfl, hrecorded⟩
      exact ⟨t, by simpa only [runCommands, hc] using ht, by simpa [hrefused] using hkept⟩
    · obtain ⟨herr', hcause'⟩ := hans.sameErrors hacc
      obtain ⟨t, ht, hfirst⟩ := ih u (herr'.trans herr) (hcause'.trans hcause)
      exact ⟨t, by simpa only [runCommands, hu] using ht, by simpa [hrefused] using hfirst⟩

end Sys2Proof.Machine

/-! ## Reading back what was written (20_memory.md R57, R73) -/

namespace Sys2Proof.Machine

theorem exec_wrb (addr : Addr) (data : Byte) (s : State) :
    exec (.wrb addr data) s = .next ((s.writeByte addr data).respond 0x0000#16) := rfl

theorem exec_rdb (addr : Addr) (s : State) : exec (.rdb addr) s = .next (s.respond ((s.readByte addr).setWidth 16)) :=
  rfl

/-- The encoding of WRB decodes to it: opcode, address and datum are read from where they were put, with zeros between
(30_encoding.md R84, R95). -/
theorem decode_encode_wrb (addr : Addr) (data : Byte) : decode (encode (.wrb addr data)) = .ok (.wrb addr data) := by
  obtain ⟨-, hop⟩ := Laws.EncodesToItsRow.wrb addr data
  have haddr : fieldAddr (encode (.wrb addr data)) = addr := by
    refine BitVec.eq_of_getLsbD_eq fun i hi => ?_
    simp only [fieldAddr, slice, encode, BitVec.getLsbD_extractLsb, BitVec.getLsbD_append]
    simp [hi]
  have hdata : fieldData (encode (.wrb addr data)) = data := by
    refine BitVec.eq_of_getLsbD_eq fun i hi => ?_
    simp only [fieldData, slice, encode, BitVec.getLsbD_extractLsb, BitVec.getLsbD_append]
    simp [hi]
  have hzero : slice (encode (.wrb addr data)) 27 16 = 0#12 := by
    refine BitVec.eq_of_getLsbD_eq fun i hi => ?_
    simp only [slice, encode, BitVec.getLsbD_extractLsb, BitVec.getLsbD_append]
    interval_cases i <;> simp
  simp [decode, selectByOpcode, mustBeZeroClear, hop, Instr.opcode, haddr, hdata, hzero]

/-- A command that keeps a byte does not list it among those it writes. -/
theorem Instr.not_mem_bytesWritten_of_keepsByte {i : Instr} {a : Addr} (h : Instr.keepsByte a i = true) (s : State) :
    a ∉ bytesWritten i s := by
  cases i with
  | wrb addr data =>
    have ha : addr ≠ a := by simpa [Instr.keepsByte] using h
    simpa [bytesWritten] using ha.symm
  | fix =>
    have ha : a ≠ 126#8 ∧ a ≠ 127#8 := by simpa [Instr.keepsByte] using h
    by_cases hsame : s.storedCrc = s.computedCrc <;> simp [bytesWritten, hsame, ha]
  | _ => exact List.not_mem_nil

/-- A word that keeps a byte completes and leaves the byte as it was, whether it is refused or not. -/
theorem command_keeps_byte {w : Word} {a : Addr} (h : keepsByte a w = true) (s : State) :
    ∃ t, command w s = .next t ∧ t.readByte a = s.readByte a := by
  cases hd : decode w with
  | error why => exact ⟨s.refuse .illegalCmd, by simp [command, hd], s.readByte_refuse _ a⟩
  | ok i =>
    have hkeeps : Instr.keepsByte a i = true := by simpa [keepsByte, hd] using h
    obtain ⟨t, ht, hans⟩ := exec_answers i s
    exact ⟨t, (command_of_decode_ok hd s).trans ht,
      hans.readByte_of_not_written (Instr.not_mem_bytesWritten_of_keepsByte hkeeps s)⟩

/-- A property that every word of the list keeps holds after the list's run (70_reset_and_hazards.md R233). -/
theorem runCommands_keeps_of_mem {P : State → Prop} (ws : List Word)
    (hcommand : ∀ w ∈ ws, ∀ s, P s → ∃ t, command w s = .next t ∧ P t) (s : State) (hs : P s) :
    ∃ t, runCommands ws s = .next t ∧ P t := by
  induction ws generalizing s with
  | nil => exact ⟨s, rfl, hs⟩
  | cons w ws ih =>
    obtain ⟨hw, hws⟩ := List.forall_mem_cons.1 hcommand
    obtain ⟨t, ht, hP⟩ := hw s hs
    simpa only [runCommands, ht] using ih hws t hP

/-- Words that all keep a byte complete, and the byte then holds what it held. -/
theorem runCommands_keeps_byte {ws : List Word} {a : Addr} (h : ∀ w ∈ ws, keepsByte a w = true) (s : State) :
    ∃ t, runCommands ws s = .next t ∧ t.readByte a = s.readByte a := by
  refine runCommands_keeps_of_mem (P := fun t => t.readByte a = s.readByte a) ws (fun w hw u hu => ?_) s rfl
  obtain ⟨t, ht, hbyte⟩ := command_keeps_byte (h w hw) u
  exact ⟨t, ht, hbyte.trans hu⟩

/-- Settles O47: WRB stores the datum, the list leaves the byte as it is, and RDB answers the byte it finds. -/
theorem readReturnsTheLastWrite : Obligations.ReadReturnsTheLastWrite := by
  intro s addr data ws hkeep
  have hwrite : command (encode (.wrb addr data)) s = .next ((s.writeByte addr data).respond 0x0000#16) :=
    (command_of_decode_ok (decode_encode_wrb addr data) s).trans (exec_wrb addr data s)
  obtain ⟨t, ht, hbyte⟩ := runCommands_keeps_byte hkeep ((s.writeByte addr data).respond 0x0000#16)
  have hdata : t.readByte addr = data := by simpa using hbyte
  have hread : exec (.rdb addr) t = .next (t.respond (data.setWidth 16)) := hdata ▸ exec_rdb addr t
  exact ⟨t, _, by simpa only [runCommands, hwrite] using ht, hread, congrArg (t.responses ++ [·]) (responseWord_ok _)⟩

end Sys2Proof.Machine

/-! ## Fields and encoded words as numbers (00_scope.md R10; 30_encoding.md R81 to R87) -/

namespace Sys2Proof

/-- Concatenation puts the left part above the right part's bits. -/
theorem append_toNat {m n : Nat} (x : BitVec m) (y : BitVec n) : (x ++ y).toNat = x.toNat * 2 ^ n + y.toNat := by
  rw [BitVec.toNat_append, ← Nat.shiftLeft_add_eq_or_of_lt y.isLt, Nat.shiftLeft_eq]

/-- A field of a word, as a number (00_scope.md R10). -/
theorem slice_toNat (w : Word) (hi lo : Nat) : (slice w hi lo).toNat = w.toNat / 2 ^ lo % 2 ^ (hi - lo + 1) := by
  rw [slice, BitVec.extractLsb_toNat, Nat.shiftRight_eq_div_pow]

theorem slice_eq_iff {w : Word} {hi lo : Nat} {v : BitVec (hi - lo + 1)} :
    slice w hi lo = v ↔ w.toNat / 2 ^ lo % 2 ^ (hi - lo + 1) = v.toNat := by
  rw [← BitVec.toNat_inj, slice_toNat]

/-! The encoded words as numbers: the operands weighted by the places of their fields (30_encoding.md R81 to R86). -/

theorem encode_clr_toNat : (encode .clr).toNat = 0x10000000 := rfl

theorem encode_chk_toNat : (encode .chk).toNat = 0x40000000 := rfl

theorem encode_fix_toNat : (encode .fix).toNat = 0x50000000 := rfl

theorem encode_upd_toNat (imm8 : Byte) : (encode (.upd imm8)).toNat = 0x20000000 + imm8.toNat :=
  append_toNat (0x2#4 ++ 0#20) imm8

theorem encode_span_toNat (start : Addr) (len : BitVec 9) :
    (encode (.span start len)).toNat = 0x30000000 + start.toNat * 0x10000 + len.toNat :=
  (append_toNat (0x3#4 ++ 0#4 ++ start ++ 0#7) len).trans (by simp only [append_toNat, BitVec.toNat_ofNat]; omega)

theorem encode_wrb_toNat (addr : Addr) (data : Byte) :
    (encode (.wrb addr data)).toNat = 0x60000000 + addr.toNat * 0x100 + data.toNat :=
  (append_toNat (0x6#4 ++ 0#12 ++ addr) data).trans (by simp only [append_toNat, BitVec.toNat_ofNat]; omega)

theorem encode_rdb_toNat (addr : Addr) : (encode (.rdb addr)).toNat = 0x70000000 + addr.toNat * 0x100 :=
  (append_toNat (0x7#4 ++ 0#12 ++ addr) 0#8).trans (by simp only [append_toNat, BitVec.toNat_ofNat]; omega)

theorem encode_rdr_toNat (reg : BitVec 4) : (encode (.rdr reg)).toNat = 0x80000000 + reg.toNat :=
  append_toNat (0x8#4 ++ 0#24) reg

end Sys2Proof

/-! ## The opcode map's masks (30_encoding.md R88, R95) -/

namespace Sys2Proof

/-- Every command has its row of the opcode map. -/
theorem encodesToItsRow : ∀ i : Instr, Laws.EncodesToItsRow.Statement i
  | .clr => Laws.EncodesToItsRow.clr
  | .upd imm8 => Laws.EncodesToItsRow.upd imm8
  | .span start len => Laws.EncodesToItsRow.span start len
  | .chk => Laws.EncodesToItsRow.chk
  | .fix => Laws.EncodesToItsRow.fix
  | .wrb addr data => Laws.EncodesToItsRow.wrb addr data
  | .rdb addr => Laws.EncodesToItsRow.rdb addr
  | .rdr reg => Laws.EncodesToItsRow.rdr reg

theorem fieldOp_encode (i : Instr) : fieldOp (encode i) = i.opcode := (encodesToItsRow i).2

/-- A field inside a mask is read off the masked word. -/
theorem slice_of_and_eq {w m p : Word} {hi lo : Nat} {v : BitVec (hi - lo + 1)} (h : w &&& m = p)
    (hmask : slice m hi lo = BitVec.allOnes _ := by decide) (hpat : slice p hi lo = v := by decide) :
    slice w hi lo = v := by
  calc slice w hi lo
      = slice w hi lo &&& slice m hi lo := by rw [hmask, BitVec.and_allOnes]
    _ = slice (w &&& m) hi lo := BitVec.extractLsb_and.symm
    _ = v := by rw [h, hpat]

/-- Every row's mask includes the opcode, and its match holds the row's opcode there (30_encoding.md R95). -/
theorem opRows_opcode : ∀ r ∈ opRows, slice r.mask 31 28 = 0xF#4 ∧ slice r.pat 31 28 = r.op := by decide

theorem opRows_eq_of_op_eq : ∀ r ∈ opRows, ∀ q ∈ opRows, r.op = q.op → r = q := by decide

theorem OpRow.selects_iff {r : OpRow} {w : Word} : r.selects w = true ↔ w &&& r.mask = r.pat := beq_iff_eq

theorem OpRow.fieldOp_of_selects {r : OpRow} (hr : r ∈ opRows) {w : Word} (h : r.selects w = true) :
    fieldOp w = r.op := by
  obtain ⟨hmask, hpat⟩ := opRows_opcode r hr
  exact slice_of_and_eq (OpRow.selects_iff.1 h) hmask hpat

/-- The rest of each row's mask is the must-be-zero bits of its format (30_encoding.md R94). -/
theorem OpRow.mustBeZeroClear_of_selects {r : OpRow} (hr : r ∈ opRows) {w : Word} (h : r.selects w = true) :
    mustBeZeroClear w = true := by
  have hop := OpRow.fieldOp_of_selects hr h
  have hw := OpRow.selects_iff.1 h
  simp only [opRows, List.mem_cons, List.not_mem_nil, or_false] at hr
  obtain rfl | rfl | rfl | rfl | rfl | rfl | rfl | rfl := hr
  all_goals simp only [mustBeZeroClear, hop, Bool.and_eq_true, beq_iff_eq]
  · exact slice_of_and_eq hw
  · exact slice_of_and_eq hw
  · exact ⟨slice_of_and_eq hw, slice_of_and_eq hw⟩
  · exact slice_of_and_eq hw
  · exact slice_of_and_eq hw
  · exact slice_of_and_eq hw
  · exact ⟨slice_of_and_eq hw, slice_of_and_eq hw⟩
  · exact slice_of_and_eq hw

end Sys2Proof

/-! ## Decoder and encoder are inverse (30_encoding.md R91, R94, R95) -/

namespace Sys2Proof

/-- The two tests of the decoder (30_encoding.md R94): the opcode and the must-be-zero bits. -/
theorem decode_eq_ok_iff_select {w : Word} {i : Instr} :
    decode w = .ok i ↔ selectByOpcode w = .ok i ∧ mustBeZeroClear w = true := by
  unfold decode
  cases selectByOpcode w with
  | error why => simp
  | ok j => by_cases hz : mustBeZeroClear w = true <;> simp [hz]

theorem selectByOpcode_encode (i : Instr) : selectByOpcode (encode i) = .ok i := by
  have hop := fieldOp_encode i
  cases i with
  | clr | chk | fix => rfl
  | upd imm8 =>
    have himm8 : fieldImm8 (encode (.upd imm8)) = imm8 := by
      rw [fieldImm8, slice_eq_iff, encode_upd_toNat]
      omega
    simp [selectByOpcode, hop, Instr.opcode, himm8]
  | span start len =>
    have hstart : fieldStart (encode (.span start len)) = start := by
      rw [fieldStart, slice_eq_iff, encode_span_toNat]
      omega
    have hlen : fieldLen (encode (.span start len)) = len := by
      rw [fieldLen, slice_eq_iff, encode_span_toNat]
      omega
    simp [selectByOpcode, hop, Instr.opcode, hstart, hlen]
  | wrb addr data => exact (decode_eq_ok_iff_select.1 (Machine.decode_encode_wrb addr data)).1
  | rdb addr =>
    have haddr : fieldAddr (encode (.rdb addr)) = addr := by
      rw [fieldAddr, slice_eq_iff, encode_rdb_toNat]
      omega
    simp [selectByOpcode, hop, Instr.opcode, haddr]
  | rdr reg =>
    have hreg : fieldReg (encode (.rdr reg)) = reg := by
      rw [fieldReg, slice_eq_iff, encode_rdr_toNat]
      omega
    simp [selectByOpcode, hop, Instr.opcode, hreg]

theorem mustBeZeroClear_encode (i : Instr) : mustBeZeroClear (encode i) = true := by
  obtain ⟨⟨r, hr, -, hsel⟩, -⟩ := encodesToItsRow i
  exact OpRow.mustBeZeroClear_of_selects hr hsel

theorem decode_encode (i : Instr) : decode (encode i) = .ok i :=
  decode_eq_ok_iff_select.2 ⟨selectByOpcode_encode i, mustBeZeroClear_encode i⟩

/-- In each format the opcode, the zero bits and the operand fields make up the whole word. -/
theorem encode_of_decode {w : Word} {i : Instr} (h : decode w = .ok i) : encode i = w := by
  obtain ⟨hsel, hz⟩ := decode_eq_ok_iff_select.1 h
  unfold selectByOpcode at hsel
  split at hsel
  case h_9 => cases hsel
  all_goals
    rename_i hop
    cases hsel
    simp only [mustBeZeroClear, hop, Bool.and_eq_true, beq_iff_eq, slice_eq_iff, BitVec.ofNat_eq_ofNat,
      BitVec.toNat_ofNat] at hz
    rw [fieldOp, slice_eq_iff, BitVec.toNat_ofNat] at hop
    refine BitVec.eq_of_toNat_eq ?_
    simp only [encode_clr_toNat, encode_upd_toNat, encode_span_toNat, encode_chk_toNat, encode_fix_toNat,
      encode_wrb_toNat, encode_rdb_toNat, encode_rdr_toNat, fieldImm8, fieldData, fieldAddr, fieldStart, fieldLen,
      fieldReg, slice_toNat]
    omega

/-- Settles O1: the masks include the opcode, so a row is known by the opcode of a word it selects. -/
theorem decodeEncodeRoundTrip : Obligations.DecodeEncodeRoundTrip := by
  refine ⟨decode_encode, fun r hr => (opRows_opcode r hr).1, fun r hr q hq h => ?_, fun w r hr q hq hrw hqw => ?_⟩
  · obtain ⟨-, hrpat⟩ := opRows_opcode r hr
    obtain ⟨-, hqpat⟩ := opRows_opcode q hq
    exact opRows_eq_of_op_eq r hr q hq (hrpat.symm.trans (h.trans hqpat))
  · exact opRows_eq_of_op_eq r hr q hq
      ((OpRow.fieldOp_of_selects hr hrw).symm.trans (OpRow.fieldOp_of_selects hq hqw))

/-- Settles O2: in each format the fields and the zero bits are the whole word. -/
theorem encodeDecodeRoundTrip : Obligations.EncodeDecodeRoundTrip := fun _ _ => encode_of_decode

/-- A legal word's opcode is its command's. -/
theorem fieldOp_of_decode {w : Word} {i : Instr} (h : decode w = .ok i) : fieldOp w = i.opcode :=
  encode_of_decode h ▸ fieldOp_encode i

theorem OpRow.selects_of_decode {r : OpRow} (hr : r ∈ opRows) {w : Word} {i : Instr} (h : decode w = .ok i)
    (hop : i.opcode = r.op) : r.selects w = true := by
  obtain ⟨⟨q, hq, hqop, hsel⟩, -⟩ := encodesToItsRow i
  rw [encode_of_decode h, opRows_eq_of_op_eq q hq r hr (hqop.trans hop)] at hsel
  exact hsel

/-- A row selects exactly the words that decode to the command the row's opcode selects (30_encoding.md R88, R94). -/
theorem and_mask_eq_iff_decode (r : OpRow) (hr : r ∈ opRows) {w : Word} {i : Instr} (hop : i.opcode = r.op)
    (hselect : fieldOp w = r.op → selectByOpcode w = .ok i) : w &&& r.mask = r.pat ↔ decode w = .ok i := by
  rw [← OpRow.selects_iff]
  constructor
  · intro h
    exact decode_eq_ok_iff_select.2 ⟨hselect (OpRow.fieldOp_of_selects hr h), OpRow.mustBeZeroClear_of_selects hr h⟩
  · intro h
    exact OpRow.selects_of_decode hr h hop

/-- Settles O3: a word with a row's opcode selects that row's command, its operands the row's fields of the word. -/
theorem masksSelectCommands : Obligations.MasksSelectCommands := by
  intro w
  refine ⟨?_, ?_, ?_, ?_, ?_, ?_, ?_, ?_⟩
  · exact and_mask_eq_iff_decode ⟨0x1#4, _, _⟩ (by decide) rfl fun h => by simp only [selectByOpcode, h]
  · exact and_mask_eq_iff_decode ⟨0x2#4, _, _⟩ (by decide) rfl fun h => by simp only [selectByOpcode, h]; rfl
  · exact and_mask_eq_iff_decode ⟨0x3#4, _, _⟩ (by decide) rfl fun h => by simp only [selectByOpcode, h]; rfl
  · exact and_mask_eq_iff_decode ⟨0x4#4, _, _⟩ (by decide) rfl fun h => by simp only [selectByOpcode, h]
  · exact and_mask_eq_iff_decode ⟨0x5#4, _, _⟩ (by decide) rfl fun h => by simp only [selectByOpcode, h]
  · exact and_mask_eq_iff_decode ⟨0x6#4, _, _⟩ (by decide) rfl fun h => by simp only [selectByOpcode, h]; rfl
  · exact and_mask_eq_iff_decode ⟨0x7#4, _, _⟩ (by decide) rfl fun h => by simp only [selectByOpcode, h]; rfl
  · exact and_mask_eq_iff_decode ⟨0x8#4, _, _⟩ (by decide) rfl fun h => by simp only [selectByOpcode, h]; rfl

theorem exists_decode_of_selects {r : OpRow} (hr : r ∈ opRows) {w : Word} (h : r.selects w = true) :
    ∃ i, decode w = .ok i := by
  obtain ⟨hclr, hupd, hspan, hchk, hfix, hwrb, hrdb, hrdr⟩ := masksSelectCommands w
  have hw := OpRow.selects_iff.1 h
  simp only [opRows, List.mem_cons, List.not_mem_nil, or_false] at hr
  obtain rfl | rfl | rfl | rfl | rfl | rfl | rfl | rfl := hr
  · exact ⟨_, hclr.1 hw⟩
  · exact ⟨_, hupd.1 hw⟩
  · exact ⟨_, hspan.1 hw⟩
  · exact ⟨_, hchk.1 hw⟩
  · exact ⟨_, hfix.1 hw⟩
  · exact ⟨_, hwrb.1 hw⟩
  · exact ⟨_, hrdb.1 hw⟩
  · exact ⟨_, hrdr.1 hw⟩

/-- Settles O4: a command's row selects its words, and a row's words decode to its command. -/
theorem legalWordsMatchTheOpcodeMap : Obligations.LegalWordsMatchTheOpcodeMap := by
  intro w
  constructor
  · rintro ⟨i, hi⟩
    obtain ⟨⟨r, hr, -, hsel⟩, -⟩ := encodesToItsRow i
    exact List.any_eq_true.2 ⟨r, hr, encode_of_decode hi ▸ hsel⟩
  · intro h
    obtain ⟨r, hr, hsel⟩ := List.any_eq_true.1 h
    exact exists_decode_of_selects hr hsel

/-- Settles O6: each word is decoded by evaluation. -/
theorem specWordsDecode : Obligations.SpecWordsDecode := by
  unfold Obligations.SpecWordsDecode
  decide

end Sys2Proof

/-! ## The count of legal words (30_encoding.md R91) -/

namespace Sys2Proof

/-- A command is a choice of one of the eight, with its operand fields. -/
def instrEquivFields : Instr ≃ Unit ⊕ Byte ⊕ (Addr × BitVec 9) ⊕ Unit ⊕ Unit ⊕ (Addr × Byte) ⊕ Addr ⊕ BitVec 4 where
  toFun
    | .clr => .inl ()
    | .upd imm8 => .inr (.inl imm8)
    | .span start len => .inr (.inr (.inl (start, len)))
    | .chk => .inr (.inr (.inr (.inl ())))
    | .fix => .inr (.inr (.inr (.inr (.inl ()))))
    | .wrb addr data => .inr (.inr (.inr (.inr (.inr (.inl (addr, data))))))
    | .rdb addr => .inr (.inr (.inr (.inr (.inr (.inr (.inl addr))))))
    | .rdr reg => .inr (.inr (.inr (.inr (.inr (.inr (.inr reg))))))
  invFun
    | .inl () => .clr
    | .inr (.inl imm8) => .upd imm8
    | .inr (.inr (.inl (start, len))) => .span start len
    | .inr (.inr (.inr (.inl ()))) => .chk
    | .inr (.inr (.inr (.inr (.inl ())))) => .fix
    | .inr (.inr (.inr (.inr (.inr (.inl (addr, data)))))) => .wrb addr data
    | .inr (.inr (.inr (.inr (.inr (.inr (.inl addr)))))) => .rdb addr
    | .inr (.inr (.inr (.inr (.inr (.inr (.inr reg)))))) => .rdr reg
  left_inv i := by cases i <;> rfl
  right_inv x := by rcases x with _ | _ | ⟨_, _⟩ | _ | _ | ⟨_, _⟩ | _ | _ <;> rfl

theorem card_bitVec (n : Nat) : Nat.card (BitVec n) = 2 ^ n := Nat.card_eq_of_equiv_fin BitVec.equivFin.toEquiv

theorem card_instr : Nat.card Instr = 197139 := by
  rw [Nat.card_congr instrEquivFields]
  simp only [Nat.card_sum, Nat.card_prod, Nat.card_unique, card_bitVec, Nat.reducePow, Nat.reduceMul, Nat.reduceAdd]

/-- `encode` puts the commands and the legal words in one-to-one correspondence. -/
theorem encode_bijective :
    Function.Bijective fun i : Instr => (⟨encode i, i, decode_encode i⟩ : { w : Word // ∃ i, decode w = .ok i }) := by
  constructor
  · intro i j h
    have hw : encode i = encode j := congrArg Subtype.val h
    have hij : Except.ok i = Except.ok (ε := Illegal) j := by rw [← decode_encode i, hw, decode_encode j]
    cases hij
    rfl
  · rintro ⟨w, i, hi⟩
    exact ⟨i, Subtype.ext (encode_of_decode hi)⟩

/-- Settles O5: the legal words are as many as the commands, 3 + 2^8 + 2^17 + 2^16 + 2^8 + 2^4. -/
theorem legalWordCount : Obligations.LegalWordCount :=
  (Nat.card_eq_of_bijective _ encode_bijective).symm.trans card_instr

end Sys2Proof

/-! ## Which words are refused, and the response word (30_encoding.md R89, R90, R93, R96, R97) -/

namespace Sys2Proof

/-- The opcodes in use (30_encoding.md R88). -/
theorem Instr.opcode_mem (i : Instr) : i.opcode ∈ [0x1#4, 0x2#4, 0x3#4, 0x4#4, 0x5#4, 0x6#4, 0x7#4, 0x8#4] := by
  cases i <;> simp [Instr.opcode]

theorem reserved_opcode_not_mem : ∀ op : BitVec 4, op = 0x0#4 ∨ 9 ≤ op.toNat →
    op ∉ [0x1#4, 0x2#4, 0x3#4, 0x4#4, 0x5#4, 0x6#4, 0x7#4, 0x8#4] := by
  decide

theorem decode_ne_ok_of_reserved_opcode {w : Word} (h : slice w 31 28 = 0x0#4 ∨ 9 ≤ (slice w 31 28).toNat)
    (i : Instr) : decode w ≠ .ok i := by
  intro hd
  have hop : slice w 31 28 = i.opcode := fieldOp_of_decode hd
  exact reserved_opcode_not_mem _ h (hop ▸ i.opcode_mem)

/-- Each row's mask below the opcode is its format's must-be-zero bits (30_encoding.md R81 to R86, R94). -/
theorem opRows_mustBeZero_masks : opRows.map (fun r => (r.op, r.mask &&& 0x0FFFFFFF#32)) =
    [(0x1#4, 0x0FFFFFFF#32), (0x2#4, 0x0FFFFF00#32), (0x3#4, 0x0F00FE00#32), (0x4#4, 0x0FFFFFFF#32),
      (0x5#4, 0x0FFFFFFF#32), (0x6#4, 0x0FFF0000#32), (0x7#4, 0x0FFF00FF#32), (0x8#4, 0x0FFFFFF0#32)] := by
  decide

theorem opRows_pat_below_opcode : ∀ r ∈ opRows, r.pat &&& 0x0FFFFFFF#32 = 0#32 := by decide

/-- The two operand conditions are all that phase 2 tests (30_encoding.md R93). -/
theorem Instr.operandsAccepted_of_conditions {i : Instr}
    (hspan : ∀ start len, i = .span start len → start.toNat + len.toNat ≤ 256)
    (hrdr : ∀ reg, i = .rdr reg → reg.toNat < 5) : i.operandsAccepted = true := by
  cases i with
  | span start len => exact decide_eq_true (hspan start len rfl)
  | rdr reg => exact decide_eq_true (Nat.le_of_lt_succ (hrdr reg rfl))
  | _ => rfl

end Sys2Proof

namespace Sys2Proof.Machine

/-- What a refusal leaves, as the claims write it (60_exceptions.md R191). -/
theorem State.refuse_refusedTo (s : State) (c : Cause) : RefusedTo s (s.refuse c) c.code := by
  obtain ⟨herr, hcause, hresp, himg⟩ := s.refuse_spec c
  exact ⟨herr, hcause, hresp, s.readByte_refuse c, himg, rfl, ⟨rfl, rfl, rfl, rfl, rfl, rfl⟩, rfl, rfl⟩

/-- A word that decodes to no command is refused with ILLEGAL_CMD (60_exceptions.md R193). -/
theorem command_refusedTo_of_illegal {w : Word} (h : ∀ i, decode w ≠ .ok i) (s : State) :
    ∃ t, command w s = .next t ∧ RefusedTo s t 0x1#4 := by
  cases hd : decode w with
  | ok i => exact absurd hd (h i)
  | error why => exact ⟨s.refuse .illegalCmd, by simp only [command, hd], s.refuse_refusedTo .illegalCmd⟩

/-- Settles O7: no command has such an opcode, so the word is illegal. -/
theorem reservedOpcodesAreRefused : Obligations.ReservedOpcodesAreRefused :=
  ⟨fun s _ h => command_refusedTo_of_illegal (decode_ne_ok_of_reserved_opcode h) s,
    command_refusedTo_of_illegal (decode_ne_ok_of_reserved_opcode (by decide)),
    command_refusedTo_of_illegal (decode_ne_ok_of_reserved_opcode (by decide))⟩

/-- Settles O8: a legal word is selected by its opcode's row, so its must-be-zero bits are those of the row's match,
all 0. -/
theorem mustBeZeroBitsAreRefused : Obligations.MustBeZeroBitsAreRefused := by
  intro s w mbz hmem hset
  rw [← opRows_mustBeZero_masks] at hmem
  obtain ⟨r, hr, hpair⟩ := List.mem_map.1 hmem
  obtain ⟨hop, rfl⟩ := Prod.mk.inj hpair
  refine command_refusedTo_of_illegal (fun i hd => hset ?_) s
  have hrow : i.opcode = r.op := (fieldOp_of_decode hd).symm.trans hop.symm
  calc w &&& (r.mask &&& 0x0FFFFFFF#32)
      = w &&& r.mask &&& 0x0FFFFFFF#32 := (BitVec.and_assoc ..).symm
    _ = r.pat &&& 0x0FFFFFFF#32 := by rw [OpRow.selects_iff.1 (OpRow.selects_of_decode hr hd hrow)]
    _ = 0#32 := opRows_pat_below_opcode r hr

/-- The `VALUE` of CHK and FIX, as the claims write it. -/
theorem flagValue_eq (b : Bool) : flagValue b = if b = true then 1#16 else 0#16 := by
  cases b <;> rfl

/-- CLR, UPD and SPAN answer the accumulator. -/
theorem resultValue_of_loads_acc {i : Instr} (hop : i.opcode ∈ [0x1#4, 0x2#4, 0x3#4]) (t : State) :
    resultValue i t = t.acc := by
  cases i with
  | clr | upd | span => rfl
  | _ => simp [Instr.opcode] at hop

/-- What RDB and RDR read is not changed by their own response. -/
theorem resultValue_respond_of_reads {i : Instr} (hop : i.opcode ∈ [0x7#4, 0x8#4]) (s : State) (v : Half) :
    resultValue i (s.respond v) = resultValue i s := by
  cases i with
  | rdb | rdr => rfl
  | _ => simp [Instr.opcode] at hop

/-- A completed command's one response carries its `VALUE` (30_encoding.md R97). -/
theorem ExecAnswers.responses_eq {s t : State} {i : Instr} (h : ExecAnswers s i t) (hacc : i.operandsAccepted = true) :
    t.responses = s.responses ++ [responseWord false 0x0#4 (resultValue i t)] := by
  cases h with
  | refused c hrej hcode => simp [hacc] at hrej
  | loadsAcc v hop _ =>
    rw [resultValue_of_loads_acc hop]
    rfl
  | reads hop _ =>
    rw [resultValue_respond_of_reads hop]
    rfl
  | writes => rfl
  | checks =>
    have hval : resultValue .chk s.checked = flagValue (s.storedCrc != s.computedCrc) := (flagValue_eq _).symm
    rw [hval]
    rfl
  | fixes =>
    have hval : resultValue .fix s.fixed = flagValue (s.storedCrc != s.computedCrc) := (flagValue_eq _).symm
    rw [hval]
    rfl

/-- Settles O9: SPAN and RDR are refused by their own test; any other command answers with its operands accepted. -/
theorem onlyTheTwoOperandConditionsRefuse : Obligations.OnlyTheTwoOperandConditionsRefuse := by
  intro s
  refine ⟨fun start len h => ⟨_, execSpan_refused s h, s.refuse_refusedTo .spanRange⟩,
    fun reg h => ⟨_, execRdr_unnamed s h, s.refuse_refusedTo .badReg⟩, fun i hspan hrdr => ?_⟩
  have hacc := Instr.operandsAccepted_of_conditions hspan hrdr
  obtain ⟨t, ht, hans⟩ := exec_answers i s
  obtain ⟨herr, -⟩ := responseWord_fields false 0x0#4 (resultValue i t)
  exact ⟨t, _, ht, hans.sameErrors hacc, hans.responses_eq hacc, herr⟩

theorem acc_of_exec_clr {s t : State} (h : exec .clr s = .next t) : t.acc = 0x0000#16 := by
  cases h
  rfl

theorem Instr.operandCause_of_accepted {i : Instr} (h : i.operandsAccepted = true) : Instr.operandCause i = 0x0#4 := by
  cases i with
  | span start len => exact if_pos (of_decide_eq_true h)
  | rdr reg => exact if_pos (of_decide_eq_true h)
  | _ => rfl

/-- A word that is not refused decodes to a command that answers with its operands accepted. -/
theorem exec_answers_of_not_refused {w : Word} (h : commandRefused w = false) (s : State) :
    ∃ i t, decode w = .ok i ∧ i.operandsAccepted = true ∧ exec i s = .next t ∧ ExecAnswers s i t := by
  cases hd : decode w with
  | error why => simp [commandRefused, hd] at h
  | ok i =>
    obtain ⟨t, ht, hans⟩ := exec_answers i s
    exact ⟨i, t, rfl, by simpa [commandRefused, hd] using h, ht, hans⟩

/-- Settles O10: a refusal answers its cause and `VALUE` 0, any other word its command's `VALUE`. -/
theorem responseWordOfEveryCommand : Obligations.ResponseWordOfEveryCommand := by
  intro s w
  cases href : commandRefused w with
  | true =>
    obtain ⟨c, -, hcode, hc⟩ | ⟨-, -, hno, -⟩ := command_cases w s
    · obtain ⟨herr, hgap, hcause, hzero, hval⟩ := responseWord_fields true c.code 0#16
      exact ⟨_, _, hc, rfl, hgap, hzero, by rw [herr], hcause.trans hcode, nofun, fun _ => hval, nofun,
        fun _ => hval⟩
    · simp [href] at hno
  | false =>
    obtain ⟨i, t, hd, hacc, ht, hans⟩ := exec_answers_of_not_refused href s
    have hcode : refusalCode w = 0x0#4 := by simp [refusalCode, hd, Instr.operandCause_of_accepted hacc]
    obtain ⟨herr, hgap, hcause, hzero, hval⟩ := responseWord_fields false 0x0#4 (resultValue i t)
    refine ⟨t, _, (command_of_decode_ok hd s).trans ht, hans.responses_eq hacc, hgap, hzero, by rw [herr],
      hcause.trans hcode.symm, fun _ => hcode, nofun, fun j hj _ => ?_, fun hclr => ?_⟩
    · cases hd.symm.trans hj
      exact hval
    · cases hd.symm.trans hclr
      exact hval.trans (acc_of_exec_clr ht)

end Sys2Proof.Machine

/-! ## The assembler's lines and what their commands do (30_encoding.md R101 to R105) -/

namespace Sys2Proof.Machine

theorem assemble_of_fits {l : Line} (h : l.fits = true) : assemble l = some l.words := if_pos h

theorem Line.words_eq_map_encode {l : Line} (h : ∀ n, l ≠ .word n) : l.words = l.instrs.map encode := by
  cases l with
  | word w => exact absurd rfl (h w)
  | _ => rfl

/-- Settles O52: every word but a raw one is the encoding of a command of the line. -/
theorem assemblerEmitsLegalWords : Obligations.AssemblerEmitsLegalWords := by
  intro l ws hl hasm w hw
  by_cases hfits : l.fits = true
  · cases (assemble_of_fits hfits).symm.trans hasm
    rw [Line.words_eq_map_encode hl] at hw
    obtain ⟨i, -, rfl⟩ := List.mem_map.1 hw
    exact ⟨i, decode_encode i⟩
  · simp [assemble, hfits] at hasm

/-! ### Running encoded commands -/

/-- An encoded command runs as itself. -/
theorem runCommands_encode_cons {i : Instr} {s t : State} (h : exec i s = .next t) (ws : List Word) :
    runCommands (encode i :: ws) s = runCommands ws t := by
  simp only [runCommands, command_of_decode_ok (decode_encode i) s, h]

theorem writesFrom_eq (addr : Nat) (bytes : List Nat) : writesFrom addr bytes =
    (bytes.zipIdx addr).map fun p => .wrb (BitVec.ofNat 8 p.2) (BitVec.ofNat 8 p.1) := by
  induction bytes generalizing addr with
  | nil => rfl
  | cons b bs ih => simp [writesFrom, ih]

/-- A list of WRBs at rising addresses inside the image completes with each byte at its address and every other byte
unchanged. -/
theorem runCommands_writesFrom (bytes : List Nat) (addr : Nat) (s : State) (h : addr + bytes.length ≤ 256) :
    ∃ t, runCommands ((writesFrom addr bytes).map encode) s = .next t
      ∧ t.responses = s.responses ++ List.replicate bytes.length 0#32
      ∧ (∀ k b, bytes[k]? = some b → t.readByte (BitVec.ofNat 8 (addr + k)) = BitVec.ofNat 8 b)
      ∧ ∀ a : Addr, a.toNat < addr ∨ addr + bytes.length ≤ a.toNat → t.readByte a = s.readByte a := by
  induction bytes generalizing addr s with
  | nil => exact ⟨s, rfl, by simp, by simp, fun _ _ => rfl⟩
  | cons b bs ih =>
    rw [List.length_cons] at h
    obtain ⟨t, hrun, hresp, hbytes, hframe⟩ := ih (addr + 1)
      ((s.writeByte (BitVec.ofNat 8 addr) (BitVec.ofNat 8 b)).respond 0x0000#16) (by omega)
    have haddr : (BitVec.ofNat 8 addr).toNat = addr := by rw [BitVec.toNat_ofNat]; omega
    refine ⟨t, (runCommands_encode_cons (exec_wrb _ _ s) _).trans hrun, ?_, fun k c hk => ?_, fun a ha => ?_⟩
    · simp [hresp, responseWord_ok, List.replicate_succ]
    · cases k with
      | zero =>
        cases hk
        rw [Nat.add_zero, hframe _ (.inl (by omega)), State.readByte_respond, State.readByte_writeByte_same]
      | succ k => rw [← hbytes k c hk, Nat.add_right_comm, Nat.add_assoc]
    · rw [List.length_cons] at ha
      rw [hframe a (by omega), State.readByte_respond, State.readByte_writeByte_other]
      rintro rfl
      omega

/-- Settles O53: WRH is a list of two WRBs. -/
theorem wrhStoresLittleEndian : Obligations.WrhStoresLittleEndian := by
  intro s addr imm16 haddr himm
  obtain ⟨t, hrun, -, hbytes, hframe⟩ := runCommands_writesFrom [imm16 % 256, imm16 / 256] addr s
    (show addr + 2 ≤ 256 by omega)
  have hlow : t.readByte (BitVec.ofNat 8 addr) = BitVec.ofNat 8 (imm16 % 256) := hbytes 0 _ rfl
  have hhigh : t.readByte (BitVec.ofNat 8 (addr + 1)) = BitVec.ofNat 8 (imm16 / 256) := hbytes 1 _ rfl
  have hword : t.readByte (BitVec.ofNat 8 (addr + 1)) ++ t.readByte (BitVec.ofNat 8 addr) = BitVec.ofNat 16 imm16 := by
    rw [hlow, hhigh]
    refine BitVec.eq_of_toNat_eq ?_
    rw [append_toNat, BitVec.toNat_ofNat, BitVec.toNat_ofNat, BitVec.toNat_ofNat]
    omega
  refine ⟨t, ?_, hrun, hword, ?_, fun a hlo hhi => hframe a ?_⟩
  · exact assemble_of_fits (by simpa [Line.fits] using ⟨haddr, himm⟩)
  · rintro rfl
    exact hword
  · show a.toNat < addr ∨ addr + 2 ≤ a.toNat
    omega

theorem SameMachine.refl (s : State) : SameMachine s s :=
  ⟨rfl, fun _ => rfl, rfl, ⟨rfl, rfl, rfl, rfl, rfl, rfl⟩, ⟨rfl, rfl⟩, rfl, rfl⟩

/-- A list of RDBs answers the bytes at its addresses, in order, and changes nothing. -/
theorem runCommands_reads (addrs : List Addr) (s : State) :
    ∃ t, runCommands (addrs.map fun a => encode (.rdb a)) s = .next t ∧ SameMachine s t
      ∧ t.responses = s.responses ++ addrs.map fun a => (s.readByte a).setWidth 32 := by
  induction addrs generalizing s with
  | nil => exact ⟨s, rfl, SameMachine.refl s, by simp⟩
  | cons a as ih =>
    obtain ⟨t, hrun, hsame, hresp⟩ := ih (s.respond ((s.readByte a).setWidth 16))
    refine ⟨t, (runCommands_encode_cons (exec_rdb a s) _).trans hrun, hsame, ?_⟩
    simp [hresp, responseWord_ok]

theorem assemble_ldimg {bytes : List Nat} (hlen : bytes.length = 256) (h : ∀ b ∈ bytes, b < 256) :
    assemble (.ldimg bytes) = some ((writesFrom 0 bytes).map encode) :=
  assemble_of_fits (by simpa [Line.fits, hlen] using h)

theorem assemble_dump :
    assemble .dump = some (((List.range 256).map (BitVec.ofNat 8)).map fun a => encode (.rdb a)) := by
  rw [assemble_of_fits rfl]
  simp [Line.words, Line.instrs]

/-- An image that holds a list of bytes is read back, from address 0 on, as that list. -/
theorem map_readByte_range {bytes : List Nat} {t : State} (h : ∀ b ∈ bytes, b < 256)
    (hbytes : ∀ k b, bytes[k]? = some b → t.readByte (BitVec.ofNat 8 k) = BitVec.ofNat 8 b) :
    (List.range bytes.length).map (fun k => (t.readByte (BitVec.ofNat 8 k)).setWidth 32) =
      bytes.map (BitVec.ofNat 32) := by
  refine List.ext_getElem (by simp) fun k hk _ => ?_
  have hk' : k < bytes.length := by simpa using hk
  have hb : bytes[k] < 256 := h _ (List.getElem_mem hk')
  rw [List.getElem_map, List.getElem_map, List.getElem_range, hbytes k _ (List.getElem?_eq_getElem hk')]
  refine BitVec.eq_of_toNat_eq ?_
  simp only [BitVec.toNat_setWidth, BitVec.toNat_ofNat]
  omega

/-- Settles O54: LDIMG is a list of WRBs from address 0, DUMP a list of RDBs. -/
theorem ldimgThenDump : Obligations.LdimgThenDump := by
  intro s bytes hlen hbytes
  obtain ⟨t, hwrites, hresp, hread, -⟩ := runCommands_writesFrom bytes 0 s (by omega)
  have hread' : ∀ k b, bytes[k]? = some b → t.readByte (BitVec.ofNat 8 k) = BitVec.ofNat 8 b := fun k b hk => by
    simpa using hread k b hk
  obtain ⟨u, hreads, hsame, hdump⟩ := runCommands_reads ((List.range 256).map (BitVec.ofNat 8)) t
  have hwords : (writesFrom 0 bytes).map encode =
      bytes.zipIdx.map fun p => encode (.wrb (BitVec.ofNat 8 p.2) (BitVec.ofNat 8 p.1)) := by
    rw [writesFrom_eq, List.map_map]
    rfl
  rw [List.map_map] at hdump hreads
  rw [← hwords]
  refine ⟨t, u, assemble_ldimg hlen hbytes, hwrites, hlen ▸ hresp, hread', ?_, hreads, hsame, ?_⟩
  · rw [assemble_dump, List.map_map]
    rfl
  · rw [hdump, ← map_readByte_range hbytes hread', hlen]
    rfl

theorem exec_clr (s : State) : exec .clr s = .next ((s.setAcc 0x0000#16).respond 0x0000#16) := rfl

theorem exec_upd (b : Byte) (s : State) :
    exec (.upd b) s = .next ((s.setAcc (crcByte s.acc b)).respond (crcByte s.acc b)) := rfl

/-- A list of UPDs absorbs its bytes in order (41_crc16_datapath.md R141). -/
theorem runCommands_upds (bytes : List Byte) (s : State) :
    ∃ t, runCommands (bytes.map fun b => encode (.upd b)) s = .next t ∧ t.acc = bytes.foldl crcByte s.acc := by
  induction bytes generalizing s with
  | nil => exact ⟨s, rfl, rfl⟩
  | cons b bs ih =>
    obtain ⟨t, hrun, hacc⟩ := ih ((s.setAcc (crcByte s.acc b)).respond (crcByte s.acc b))
    exact ⟨t, (runCommands_encode_cons (exec_upd b s) _).trans hrun, hacc⟩

theorem runCommands_clr_upds (bytes : List Byte) (s : State) :
    ∃ t, runCommands (encode .clr :: bytes.map fun b => encode (.upd b)) s = .next t
      ∧ t.acc = crc16 bytes bytes.length := by
  obtain ⟨t, hrun, hacc⟩ := runCommands_upds bytes ((s.setAcc 0x0000#16).respond 0x0000#16)
  exact ⟨t, (runCommands_encode_cons (exec_clr s) _).trans hrun, by rw [crc16, List.take_length, hacc]; rfl⟩

/-- `CRC16 len` is `SPAN 0, len` (30_encoding.md R102), which is inside the image for every len up to 256. -/
theorem runCommands_crc16_words {len : Nat} (h : len ≤ 256) (s : State) :
    ∃ t, runCommands (Line.crc16 len).words s = .next t ∧ t.acc = crc16 (imageBytes s 0 len) len := by
  have hlen : (BitVec.ofNat 9 len).toNat = len := by rw [BitVec.toNat_ofNat]; omega
  have hexec := execSpan_accepted s (start := 0#8) (len := BitVec.ofNat 9 len) (by rw [hlen]; simpa using h)
  refine ⟨_, (runCommands_encode_cons (i := .span _ _) hexec []).trans rfl, ?_⟩
  rw [hlen, State.spanBytes_eq]
  rfl

theorem assemble_str {codes : List Nat} (h : ∀ c ∈ codes, c < 128) :
    assemble (.str codes) = some ((codes.map (BitVec.ofNat 8)).map fun b => encode (.upd b)) := by
  have hfits : (Line.str codes).fits = true := List.all_eq_true.2 fun c hc => decide_eq_true (h c hc)
  rw [assemble_of_fits hfits]
  simp [Line.words, Line.instrs]

/-- Settles O55: CRC16 is a SPAN inside the image, STR a list of UPDs after the CLR. -/
theorem crcPseudoInstructions : Obligations.CrcPseudoInstructions := by
  have hstr : ∀ (s : State) (codes : List Nat), (∀ c ∈ codes, c < 128) → ∃ ws t, assemble (.str codes) = some ws
      ∧ ws = codes.map (fun c => encode (.upd (BitVec.ofNat 8 c))) ∧ runCommands (encode .clr :: ws) s = .next t
      ∧ t.acc = crc16 (codes.map (BitVec.ofNat 8)) codes.length := by
    intro s codes h
    obtain ⟨t, hrun, hacc⟩ := runCommands_clr_upds (codes.map (BitVec.ofNat 8)) s
    exact ⟨_, t, assemble_str h, List.map_map, hrun, by rw [hacc, List.length_map]⟩
  refine ⟨fun len => ?_, fun s len h => ?_, hstr, fun s => ?_⟩
  · simp [assemble, Line.fits, Line.words, Line.instrs]
  · obtain ⟨t, hrun, hacc⟩ := runCommands_crc16_words h s
    exact ⟨_, t, assemble_of_fits (decide_eq_true (by omega)), hrun, hacc⟩
  · obtain ⟨ws, t, hasm, -, hrun, hacc⟩ := hstr s [0x31, 0x32, 0x33, 0x34, 0x35, 0x36, 0x37, 0x38, 0x39] (by decide)
    exact ⟨ws, t, hasm, hrun, hacc.trans (by decide)⟩

end Sys2Proof.Machine

/-! ## WRB, RDB and RDR: words, effect and frame (40_image_and_register_access.md R112, R116, R120) -/

namespace Sys2Proof

/-- A word with a must-be-zero bit set is illegal, whatever its opcode (30_encoding.md R90). -/
theorem decode_error_of_mustBeZeroClear_eq_false {w : Word} (h : mustBeZeroClear w = false) :
    ∃ why, decode w = .error why := by
  cases hd : decode w with
  | error why => exact ⟨why, rfl⟩
  | ok i =>
    obtain ⟨-, hclear⟩ := decode_eq_ok_iff_select.1 hd
    simp [h] at hclear

end Sys2Proof

namespace Sys2Proof.Machine

@[simp] theorem State.written_writeByte_same (s : State) (a : Addr) (v : Byte) : (s.writeByte a v).written a = true := by
  simp [State.written, Memory.lookup_insert_same]

theorem State.written_writeByte_other (s : State) {a b : Addr} (v : Byte) (h : b ≠ a) :
    (s.writeByte a v).written b = s.written b := by
  have : b.toNat ≠ a.toNat := fun e => h (BitVec.eq_of_toNat_eq e)
  simp [State.written, Memory.lookup_insert_other _ _ this]

/-- A completed command gives one response with its `VALUE` (30_encoding.md R96). -/
theorem State.respond_respondsWith (s : State) (v : Half) : RespondsWith s (s.respond v) v :=
  congrArg (s.responses ++ [·]) (responseWord_ok v)

theorem State.respond_sameMachine (s : State) (v : Half) : SameMachine s (s.respond v) := SameMachine.refl s

/-- Settles O22: the write rules of the image at the address and elsewhere; no other field is written. -/
theorem wrbEffect : Obligations.WrbEffect := by
  refine ⟨encode_wrb_toNat, fun w (hop : fieldOp w = 0x6#4) hzero => ?_, fun s addr data => ?_⟩
  · exact decode_error_of_mustBeZeroClear_eq_false (by simpa [mustBeZeroClear, hop] using hzero)
  · exact ⟨_, exec_wrb addr data s, State.readByte_writeByte_same .., State.written_writeByte_same ..,
      fun a ha => ⟨s.readByte_writeByte_other data ha, s.written_writeByte_other data ha⟩,
      (s.writeByte addr data).respond_respondsWith 0#16, rfl, ⟨rfl, rfl, rfl, rfl, rfl, rfl⟩, ⟨rfl, rfl⟩, rfl, rfl⟩

/-- Settles O23: RDB only answers, and what it answers is the byte, zero-extended. -/
theorem rdbEffect : Obligations.RdbEffect := by
  refine ⟨encode_rdb_toNat, fun w (hop : fieldOp w = 0x7#4) hzero => ?_, fun s addr => ?_⟩
  · exact decode_error_of_mustBeZeroClear_eq_false (by simpa [mustBeZeroClear, hop, imp_iff_not_or] using hzero)
  · rw [BitVec.ofNat_toNat]
    exact ⟨_, exec_rdb addr s, s.respond_respondsWith _, s.respond_sameMachine _⟩

/-- The layout of `STATUS` (10_state.md R31): each flag weighted by the place of its bit. -/
theorem State.statusWord_eq_ofNat (s : State) : s.statusWord = BitVec.ofNat 16 (s.valid.toNat + 2 * s.cov.toNat
    + 4 * s.mismatch.toNat + 8 * s.changed.toNat + 16 * s.err.toNat) := by
  unfold State.statusWord
  generalize s.err = e, s.changed = c, s.mismatch = m, s.cov = k, s.valid = v
  revert e c m k v
  decide

/-- Settles O24: numbers 0 to 4 name a register, which RDR only answers; the others are refused. -/
theorem rdrEffect : Obligations.RdrEffect := by
  refine ⟨encode_rdr_toNat, fun w (hop : fieldOp w = 0x8#4) hzero => ?_, fun s reg v hmem => ?_, fun s reg h => ?_⟩
  · exact decode_error_of_mustBeZeroClear_eq_false (by simpa [mustBeZeroClear, hop] using hzero)
  · have hread : s.readReg reg = some v := by
      rw [← s.statusWord_eq_ofNat, BitVec.ofNat_toNat] at hmem
      simp only [List.mem_cons, List.not_mem_nil, or_false, Prod.mk.injEq] at hmem
      obtain ⟨rfl, rfl⟩ | ⟨rfl, rfl⟩ | ⟨rfl, rfl⟩ | ⟨rfl, rfl⟩ | ⟨rfl, rfl⟩ := hmem <;> rfl
    exact ⟨_, execRdr_named s hread, s.respond_respondsWith v, s.respond_sameMachine v⟩
  · exact ⟨_, execRdr_unnamed s h, s.refuse_refusedTo .badReg⟩

end Sys2Proof.Machine

/-! ## The CRC's round and byte as functions (41_crc16_datapath.md R131, R132, R136) -/

namespace Sys2Proof.Machine

/-- Bit 15 of the XOR of two values is set when it is set in just one of them, so the polynomial is added once, twice or not
at all (41_crc16_datapath.md R136 b). -/
theorem crcRound_xor (v w : Half) : crcRound (v ^^^ w) = crcRound v ^^^ crcRound w := by
  simp only [crcRound_eq, BitVec.msb_xor, BitVec.shiftLeft_xor_distrib]
  generalize v <<< 1 = x, w <<< 1 = y, Config.crcPoly = p
  cases v.msb <;> cases w.msb
  case false.false => rfl
  case false.true =>
    show x ^^^ y ^^^ p = x ^^^ (y ^^^ p)
    ac_rfl
  case true.false =>
    show x ^^^ y ^^^ p = x ^^^ p ^^^ y
    ac_rfl
  case true.true =>
    calc x ^^^ y
        = x ^^^ y ^^^ (p ^^^ p) := by rw [BitVec.xor_self, BitVec.xor_zero]
      _ = x ^^^ p ^^^ (y ^^^ p) := by ac_rfl

theorem crcRounds_eq_iterate (n : Nat) : crcRounds n = crcRound^[n] := by
  induction n with
  | zero => rfl
  | succ n ih =>
    funext v
    rw [crcRounds_succ, ih, Function.iterate_succ_apply]

theorem crcRounds_xor (n : Nat) (v w : Half) : crcRounds n (v ^^^ w) = crcRounds n v ^^^ crcRounds n w := by
  induction n generalizing v w with
  | zero => rfl
  | succ n ih => simp only [crcRounds_succ, crcRound_xor, ih]

/-- Bit 0 of the polynomial tells a round that adds it from one that does not, and no other bit of the value is lost. -/
theorem eq_zero_of_crcRound_eq_zero {v : Half} (h : crcRound v = 0#16) : v = 0#16 := by
  rw [crcRound_eq] at h
  split at h
  case isTrue =>
    have hbit : ((v <<< 1) ^^^ Config.crcPoly).getLsbD 0 = true := by simp [Config.crcPoly]
    simp [h] at hbit
  case isFalse hmsb =>
    have hlt : 2 * v.toNat < 2 ^ 16 := BitVec.msb_eq_false_iff_two_mul_lt.1 (by simpa using hmsb)
    bv_omega

theorem crcRound_injective : Function.Injective crcRound := by
  intro v w h
  refine BitVec.xor_eq_zero_iff.1 (eq_zero_of_crcRound_eq_zero ?_)
  rw [crcRound_xor, h, BitVec.xor_self]

theorem crcRounds_injective (n : Nat) : Function.Injective (crcRounds n) :=
  crcRounds_eq_iterate n ▸ crcRound_injective.iterate n

/-- As long as only zeros are shifted out, rounds are shifts. -/
theorem crcRounds_of_toNat_lt {n : Nat} {v : Half} (h : v.toNat * 2 ^ n < 2 ^ 16) : crcRounds n v = v <<< n := by
  induction n generalizing v with
  | zero => exact (BitVec.shiftLeft_zero v).symm
  | succ n ih =>
    have hpos : 0 < 2 ^ n := Nat.two_pow_pos n
    have hdouble : v.toNat * 2 * 2 ^ n < 2 ^ 16 := by rwa [Nat.mul_assoc, ← Nat.pow_succ']
    have hlt : v.toNat * 2 < 2 ^ 16 := (Nat.le_mul_of_pos_right _ hpos).trans_lt hdouble
    have hmsb : v.msb = false := BitVec.msb_eq_false_iff_two_mul_lt.2 (by omega)
    have hshift : (v <<< 1).toNat = v.toNat * 2 := by
      rw [BitVec.toNat_shiftLeft, Nat.shiftLeft_eq, pow_one, Nat.mod_eq_of_lt hlt]
    have hround : crcRound v = v <<< 1 := by simp [crcRound_eq, hmsb]
    rw [crcRounds_succ, hround, ih (by rwa [hshift]), ← BitVec.shiftLeft_add, Nat.add_comm]

theorem crcRounds_zero (n : Nat) : crcRounds n 0#16 = 0#16 := by
  rw [crcRounds_of_toNat_lt (by simp), BitVec.zero_shiftLeft]

/-- Eight rounds move a value without a high byte up by one byte. -/
theorem crcRounds_low_byte (lo : Byte) : crcRounds 8 (0#8 ++ lo) = lo ++ 0#8 := by
  have hlow : (0#8 ++ lo).toNat = lo.toNat := by rw [append_toNat, BitVec.toNat_ofNat]; omega
  rw [crcRounds_of_toNat_lt (by omega)]
  refine BitVec.eq_of_toNat_eq ?_
  rw [BitVec.toNat_shiftLeft, hlow, append_toNat, Nat.shiftLeft_eq, BitVec.toNat_ofNat]
  omega

@[simp] theorem crcByte_zero : crcByte 0#16 0#8 = 0#16 := crcRounds_zero 8

/-- The running value and the byte in its place, XORed, as the byte above the low half of the running value. -/
theorem xor_byte_eq (acc : Half) (b : Byte) : acc ^^^ (b ++ 0#8) = (highByte acc ^^^ b) ++ lowByte acc := by
  conv_lhs => rw [← highByte_append_lowByte acc]
  rw [BitVec.xor_append, BitVec.xor_zero]

/-- Settles O25: bit 15 is the most significant one, and a shift by one is a doubling. -/
theorem crcRoundDefinition : Obligations.CrcRoundDefinition := by
  refine ⟨fun v => ?_, by decide⟩
  have hdouble : v <<< 1 = BitVec.ofNat 16 (2 * v.toNat) := by
    refine BitVec.eq_of_toNat_eq ?_
    rw [BitVec.toNat_shiftLeft, BitVec.toNat_ofNat, Nat.shiftLeft_eq, pow_one, Nat.mul_comm]
  rw [crcRound_eq, hdouble, BitVec.msb_eq_getLsbD_last]

/-- Settles O26: `crcRounds` iterates `crcRound`, and a byte in bits 15 to 8 weighs 256 times as much. -/
theorem crcByteDefinition : Obligations.CrcByteDefinition := by
  refine ⟨fun acc b => ?_, by decide⟩
  have hbyte : b ++ 0#8 = BitVec.ofNat 16 (256 * b.toNat) := by
    refine BitVec.eq_of_toNat_eq ?_
    rw [append_toNat, BitVec.toNat_ofNat, BitVec.toNat_ofNat]
    omega
  rw [crcByte, hbyte, crcRounds_eq_iterate]

/-- Settles O29: the byte's place is linear, and so is each round. -/
theorem crcByteIsLinear : Obligations.CrcByteIsLinear := by
  intro a a' b b'
  have hinput : a ^^^ a' ^^^ ((b ^^^ b') ++ 0#8) = (a ^^^ (b ++ 0#8)) ^^^ (a' ^^^ (b' ++ 0#8)) := by
    have hplace : (b ^^^ b') ++ 0#8 = (b ++ 0#8) ^^^ (b' ++ 0#8) := by rw [BitVec.xor_append, BitVec.xor_self]
    rw [hplace]
    ac_rfl
  rw [crcByte, hinput, crcRounds_xor]
  rfl

/-- Settles O30: the low byte of the running value meets only shifts; the high byte and the new byte enter as one byte. -/
theorem crcByteTableForm : Obligations.CrcByteTableForm := by
  intro acc b
  have hinput : acc ^^^ (b ++ 0#8) = (0#8 ++ lowByte acc) ^^^ (0#16 ^^^ ((highByte acc ^^^ b) ++ 0#8)) := by
    rw [xor_byte_eq, BitVec.zero_xor, BitVec.xor_append, BitVec.zero_xor, BitVec.xor_zero]
  calc crcByte acc b
      = crcRounds 8 (0#8 ++ lowByte acc) ^^^ crcByte 0#16 (highByte acc ^^^ b) := by
        rw [crcByte, hinput, crcRounds_xor]; rfl
    _ = (lowByte acc ++ 0#8) ^^^ crcByte 0#16 (highByte acc ^^^ b) := by rw [crcRounds_low_byte]

/-- Settles O32: a round can be undone, and so can the XOR before the rounds; there are finitely many running values. -/
theorem crcByteIsInjective : Obligations.CrcByteIsInjective := by
  constructor
  · intro b
    refine Finite.injective_iff_bijective.1 fun acc acc' h => ?_
    exact (BitVec.xor_left_inj _).1 (crcRounds_injective 8 h)
  · intro acc b b' h
    have hplace : b ++ 0#8 = b' ++ 0#8 := (BitVec.xor_right_inj acc).1 (crcRounds_injective 8 h)
    exact (BitVec.append_left_inj 0#8).1 hplace

end Sys2Proof.Machine

/-! ## The CRC of a sequence (41_crc16_datapath.md R134, R136) -/

namespace Sys2Proof.Machine

theorem crc16_length (seq : List Byte) : crc16 seq seq.length = seq.foldl crcByte 0#16 := by
  rw [crc16, List.take_length]

/-- A CRC continues from the CRC of the bytes before. -/
theorem crc16_append (s t : List Byte) (n : Nat) :
    crc16 (s ++ t) (s.length + n) = (t.take n).foldl crcByte (crc16 s s.length) := by
  rw [crc16, List.take_length_add_append, List.foldl_append, crc16_length]

/-- Settles O31: the case of `crc16_append` that takes all of the second part. -/
theorem crcComposition : Obligations.CrcComposition := by
  intro s t
  rw [crc16_append, List.take_length]

/-- Zero bytes leave the running value 0 as it is. -/
theorem crc16_replicate_zero (k : Nat) : crc16 (List.replicate k 0#8) k = 0#16 := by
  induction k with
  | zero => rfl
  | succ k ih => simpa [crc16, List.replicate_succ] using ih

/-- Settles O28: after the zero bytes the running value is still the initial one. -/
theorem crcIgnoresLeadingZeros : Obligations.CrcIgnoresLeadingZeros := by
  intro k n seq
  have happend := crc16_append (List.replicate k 0#8) seq n
  rwa [List.length_replicate, crc16_replicate_zero] at happend

/-- Settles O27: one more byte is one more `crcByte`, and `crc16` takes `n` bytes before it looks at any. -/
theorem crc16Definition : Obligations.Crc16Definition := by
  refine ⟨fun _ => rfl, fun seq n b hb => ?_, fun seq seq' n h => ?_, rfl, by decide⟩
  · simp [crc16, List.take_add_one, hb]
  · have htake : seq.take n = seq'.take n := by
      refine List.ext_getElem? fun k => ?_
      rw [List.getElem?_take, List.getElem?_take]
      split
      case isTrue hk => exact h k hk
      case isFalse => rfl
    rw [crc16, htake, crc16]

/-- Settles O33: absorbing the high byte of a running value leaves its low byte on top of a zero byte, which the low byte then
cancels. -/
theorem crcResidueIsZero : Obligations.CrcResidueIsZero := by
  have hresidue : ∀ c : Half, crcByte (crcByte c (c.extractLsb 15 8)) (c.extractLsb 7 0) = 0#16 := by
    intro c
    have hhigh : crcByte c (c.extractLsb 15 8) = c.extractLsb 7 0 ++ 0#8 := by
      rw [crcByteTableForm, BitVec.xor_self, crcByte_zero, BitVec.xor_zero]
    rw [hhigh, crcByte, BitVec.xor_self, crcRounds_zero]
  refine ⟨hresidue, fun seq c hc => ?_⟩
  rw [crc16_append, ← hc]
  exact hresidue c

end Sys2Proof.Machine

/-! ## CLR, UPD and SPAN: words, effect and frame (41_crc16_datapath.md R138, R140, R142) -/

namespace Sys2Proof

/-- A word with the opcode of an operand-free command that is not its encoding is illegal (30_encoding.md R81, R90). -/
theorem decode_error_of_ne_encode {w : Word} {i : Instr} (hop : fieldOp w = i.opcode)
    (honly : ∀ j : Instr, j.opcode = i.opcode → j = i) (hne : w ≠ encode i) : ∃ why, decode w = .error why := by
  cases hd : decode w with
  | error why => exact ⟨why, rfl⟩
  | ok j =>
    obtain rfl := honly j ((fieldOp_of_decode hd).symm.trans hop)
    exact absurd (encode_of_decode hd).symm hne

theorem Instr.eq_clr_of_opcode (i : Instr) (h : i.opcode = 0x1#4) : i = .clr := by
  cases i <;> simp [Instr.opcode] at h ⊢

end Sys2Proof

namespace Sys2Proof.Machine

/-- What CLR, UPD and an accepted SPAN do with their value: they load it, answer it, and leave everything else. -/
theorem State.respond_setAcc_effect (s : State) (v : Half) :
    ((s.setAcc v).respond v).acc = v ∧ RespondsWith s ((s.setAcc v).respond v) v
      ∧ ((s.setAcc v).respond v).img = s.img ∧ SameImage s ((s.setAcc v).respond v)
      ∧ SameResults s ((s.setAcc v).respond v) ∧ SameErrors s ((s.setAcc v).respond v)
      ∧ SameHostSide s ((s.setAcc v).respond v) :=
  ⟨rfl, (s.setAcc v).respond_respondsWith v, rfl, fun _ => rfl, ⟨rfl, rfl, rfl, rfl, rfl, rfl⟩, ⟨rfl, rfl⟩, rfl, rfl⟩

/-- Settles O17: CLR loads 0 and has no operands. -/
theorem clrEffect : Obligations.ClrEffect :=
  ⟨by decide, fun _ hop => decode_error_of_ne_encode (i := .clr) hop Instr.eq_clr_of_opcode,
    fun s => ⟨_, exec_clr s, s.respond_setAcc_effect 0#16⟩⟩

/-- Settles O18: UPD loads the running value continued by its byte. -/
theorem updEffect : Obligations.UpdEffect := by
  refine ⟨encode_upd_toNat, fun w (hop : fieldOp w = 0x2#4) hzero => ?_, fun s b => ?_⟩
  · exact decode_error_of_mustBeZeroClear_eq_false (by simpa [mustBeZeroClear, hop] using hzero)
  · exact ⟨_, exec_upd b s, s.respond_setAcc_effect _⟩

theorem exec_span_accepted (s : State) {start : Addr} {len : BitVec 9} (h : start.toNat + len.toNat ≤ 256) :
    exec (.span start len) s = .next ((s.setAcc (crc16 (imageBytes s start.toNat len.toNat) len.toNat)).respond
      (crc16 (imageBytes s start.toNat len.toNat) len.toNat)) :=
  s.spanBytes_eq start.toNat len.toNat ▸ execSpan_accepted s h

/-- Settles O19: SPAN loads the CRC of its span when that is inside the image, and is refused when it is not. -/
theorem spanEffect : Obligations.SpanEffect := by
  refine ⟨encode_span_toNat, fun w (hop : fieldOp w = 0x3#4) hzero => ?_, fun s start len h => ?_, fun s start len h => ?_⟩
  · exact decode_error_of_mustBeZeroClear_eq_false (by simpa [mustBeZeroClear, hop, imp_iff_not_or] using hzero)
  · exact ⟨_, exec_span_accepted s h, s.respond_setAcc_effect _⟩
  · exact ⟨_, execSpan_refused s h, s.refuse_refusedTo .spanRange⟩

end Sys2Proof.Machine

/-! ## Streaming bytes through UPD (41_crc16_datapath.md R141, R143) -/

namespace Sys2Proof.Machine

theorem absorbedBytes_of_decode_ok {w : Word} {i : Instr} (h : decode w = .ok i) (ws : List Word) :
    absorbedBytes (w :: ws) = Instr.absorbs i ++ absorbedBytes ws := by
  simp only [absorbedBytes, h]

theorem absorbedBytes_of_decode_error {w : Word} {why : Illegal} (h : decode w = .error why) (ws : List Word) :
    absorbedBytes (w :: ws) = absorbedBytes ws := by
  simp only [absorbedBytes, h]

theorem keepsStream_of_decode_ok {w : Word} {i : Instr} (h : decode w = .ok i) :
    keepsStream w = true ↔ i.opcode ∉ [0x1#4, 0x3#4, 0x4#4, 0x5#4] := by
  simp only [keepsStream, h, decide_eq_true_eq]

/-- A command that does not overwrite the accumulator completes, and continues it by the bytes it absorbs: one for UPD,
none for any other. -/
theorem exec_absorbs {i : Instr} (hi : i.opcode ∉ [0x1#4, 0x3#4, 0x4#4, 0x5#4]) (s : State) :
    ∃ t, exec i s = .next t ∧ t.acc = (Instr.absorbs i).foldl crcByte s.acc := by
  obtain ⟨t, ht, hans⟩ := exec_answers i s
  cases i with
  | upd b => exact ⟨_, exec_upd b s, rfl⟩
  | wrb | rdb | rdr => exact ⟨t, ht, hans.acc_eq (.inl (by simp [Instr.opcode]))⟩
  | clr | span | chk | fix => simp [Instr.opcode] at hi

/-- A run of words that do not overwrite the accumulator completes, and continues it by the bytes of its UPDs, in order. -/
theorem runCommands_absorbs {ws : List Word} (h : ∀ w ∈ ws, keepsStream w = true) (s : State) :
    ∃ t, runCommands ws s = .next t ∧ t.acc = (absorbedBytes ws).foldl crcByte s.acc := by
  induction ws generalizing s with
  | nil => exact ⟨s, rfl, rfl⟩
  | cons w ws ih =>
    obtain ⟨hw, hws⟩ := List.forall_mem_cons.1 h
    cases hd : decode w with
    | error why =>
      obtain ⟨t, hrun, hacc⟩ := ih hws (s.refuse .illegalCmd)
      exact ⟨t, by simpa only [runCommands, command, hd] using hrun, by rwa [absorbedBytes_of_decode_error hd]⟩
    | ok i =>
      obtain ⟨u, hu, huacc⟩ := exec_absorbs ((keepsStream_of_decode_ok hd).1 hw) s
      obtain ⟨t, hrun, hacc⟩ := ih hws u
      refine ⟨t, by simpa only [runCommands, command_of_decode_ok hd, hu] using hrun, ?_⟩
      rw [hacc, huacc, absorbedBytes_of_decode_ok hd, List.foldl_append]

/-- Settles O34: CLR and `reset()` both leave the initial value, which the list then continues. -/
theorem streamedCrc : Obligations.StreamedCrc := by
  have hrun : ∀ (s : State) (ws : List Word), s.acc = 0#16 → (∀ w ∈ ws, keepsStream w = true) →
      ∃ t, runCommands ws s = .next t ∧ t.acc = crc16 (absorbedBytes ws) (absorbedBytes ws).length := by
    intro s ws hs h
    rw [crc16_length, ← hs]
    exact runCommands_absorbs h s
  refine ⟨fun s ws h => ?_, fun s ws h => hrun s.hostReset ws rfl h⟩
  rw [runCommands_encode_cons (exec_clr s)]
  exact hrun _ ws rfl h

/-- Settles O35: both load the CRC of the same bytes. -/
theorem spanEqualsStream : Obligations.SpanEqualsStream := by
  intro s start len h
  obtain ⟨u, hrun, hacc⟩ := runCommands_clr_upds (imageBytes s start.toNat len.toNat) s
  have hlen : (imageBytes s start.toNat len.toNat).length = len.toNat := List.length_ofFn
  exact ⟨_, u, exec_span_accepted s h, hrun, by rw [hacc, hlen]; rfl⟩

end Sys2Proof.Machine

/-! ## What CHK and FIX derive from the image (42_spd_check_and_fix.md R161 to R163) -/

namespace Sys2Proof.Machine

/-- Both spans contain the coverage byte and end below the stored CRC (42_spd_check_and_fix.md R161). -/
theorem spanLength_bounds (cov : Bool) : 0 < spanLength cov ∧ spanLength cov ≤ 126 := by
  cases cov <;> decide

theorem imageBytes_zero_congr {s t : State} {n : Nat} (hn : n ≤ 256)
    (h : ∀ a : Addr, a.toNat < n → t.readByte a = s.readByte a) : imageBytes t 0 n = imageBytes s 0 n := by
  refine congrArg List.ofFn (funext fun k => h _ ?_)
  rw [BitVec.toNat_ofNat]
  omega

/-- The coverage bit and the computed CRC are functions of the bytes of the span (42_spd_check_and_fix.md R163). -/
theorem State.coverage_computedCrc_congr {s t : State}
    (h : ∀ a : Addr, a.toNat < spanLength s.coverage → t.readByte a = s.readByte a) :
    t.coverage = s.coverage ∧ t.computedCrc = s.computedCrc := by
  obtain ⟨hpos, hle⟩ := spanLength_bounds s.coverage
  have hcov : t.coverage = s.coverage := congrArg (BitVec.getLsbD · 7) (h 0#8 hpos)
  refine ⟨hcov, ?_⟩
  rw [State.computedCrc_eq, State.computedCrc_eq, hcov, imageBytes_zero_congr (by omega) h]

/-- Settles O36: a byte at or beyond the span's length is none of the span's. -/
theorem computedCrcIgnoresUncoveredBytes : Obligations.ComputedCrcIgnoresUncoveredBytes := by
  intro s a v ha
  obtain ⟨hcov, hcrc⟩ := State.coverage_computedCrc_congr (s := s) (t := s.writeByte a v) fun b hb => by
    refine s.readByte_writeByte_other v ?_
    rintro rfl
    omega
  exact ⟨hcrc, hcov⟩

/-- The computed CRC by the coverage bit and the two span lengths, as the claims about CHK and FIX write it. -/
theorem State.eq_computedCrc {s : State} {n : Nat} {computed : Half}
    (hn : n = if (s.readByte 0#8).getLsbD 7 = true then 117 else 126) (h : computed = crc16 (imageBytes s 0 n) n) :
    computed = s.computedCrc := by
  rw [h, hn, s.computedCrc_eq]
  rfl

/-- CHK and FIX answer 0 when the two CRCs agree and 1 when they differ (42_spd_check_and_fix.md R166, R170). -/
theorem flagValue_bne (u v : Half) : flagValue (u != v) = if u = v then 0#16 else 1#16 := by
  by_cases h : u = v <;> simp [flagValue_eq, h]

end Sys2Proof.Machine

/-! ## CHK: its word, its effect, and how long its snapshot stays (42_spd_check_and_fix.md R166, R167) -/

namespace Sys2Proof

theorem Instr.eq_chk_of_opcode (i : Instr) (h : i.opcode = 0x4#4) : i = .chk := by
  cases i <;> simp [Instr.opcode] at h ⊢

end Sys2Proof

namespace Sys2Proof.Machine

theorem State.checked_respondsWith (s : State) :
    RespondsWith s s.checked (if s.storedCrc = s.computedCrc then 0#16 else 1#16) :=
  flagValue_bne s.storedCrc s.computedCrc ▸ State.respond_respondsWith _ _

/-- Settles O20: each field of `State.checked` is the value of R166 or the old one. -/
theorem chkEffect : Obligations.ChkEffect := by
  refine ⟨by decide, fun _ hop => decode_error_of_ne_encode (i := .chk) hop Instr.eq_chk_of_opcode,
    fun s n stored computed hn hstored hcomputed => ?_⟩
  obtain rfl : stored = s.storedCrc := hstored
  obtain rfl := State.eq_computedCrc hn hcomputed
  exact ⟨s.checked, exec_chk s, rfl, rfl, rfl, rfl, bne_iff_ne, rfl, s.checked_respondsWith, rfl, rfl, fun _ => rfl,
    ⟨rfl, rfl⟩, rfl, rfl⟩

/-- A word that is neither CHK nor FIX completes and leaves the result registers, whether it is refused or not. -/
theorem command_keeps_results {w : Word} (h : keepsSnapshot w = true) (s : State) :
    ∃ t, command w s = .next t ∧ SameResults s t := by
  cases hd : decode w with
  | error why => exact ⟨s.refuse .illegalCmd, by simp [command, hd], rfl, rfl, rfl, rfl, rfl, rfl⟩
  | ok i =>
    obtain ⟨hchk, hfix⟩ : i ≠ .chk ∧ i ≠ .fix := by simpa [keepsSnapshot, hd] using h
    obtain ⟨t, ht, hans⟩ := exec_answers i s
    exact ⟨t, (command_of_decode_ok hd s).trans ht, hans.sameResults hchk hfix⟩

/-- A list without CHK and FIX completes and leaves the two CRC registers. -/
theorem runCommands_keeps_snapshot {ws : List Word} (h : ∀ w ∈ ws, keepsSnapshot w = true) (s : State) :
    ∃ t, runCommands ws s = .next t ∧ t.crcComputed = s.crcComputed ∧ t.crcStored = s.crcStored := by
  refine runCommands_keeps_of_mem (P := fun t => t.crcComputed = s.crcComputed ∧ t.crcStored = s.crcStored) ws
    (fun w hw u hu => ?_) s ⟨rfl, rfl⟩
  obtain ⟨hucomputed, hustored⟩ := hu
  obtain ⟨t, ht, hstored, hcomputed, -⟩ := command_keeps_results (h w hw) u
  exact ⟨t, ht, hcomputed.trans hucomputed, hstored.trans hustored⟩

/-- Settles O37: CHK loads both registers from the image as it is, and the list leaves them. -/
theorem chkSnapshotStays : Obligations.ChkSnapshotStays := by
  refine fun s => ⟨s.checked, exec_chk s, fun ws h => ?_⟩
  obtain ⟨u, hrun, hcomputed, hstored⟩ := runCommands_keeps_snapshot h s.checked
  exact ⟨u, hrun, hcomputed.trans s.computedCrc_eq, hstored⟩

end Sys2Proof.Machine

/-! ## FIX: its word, its effect, and its laws (42_spd_check_and_fix.md R170, R171) -/

namespace Sys2Proof

theorem Instr.eq_fix_of_opcode (i : Instr) (h : i.opcode = 0x5#4) : i = .fix := by
  cases i <;> simp [Instr.opcode] at h ⊢

end Sys2Proof

namespace Sys2Proof.Machine

theorem State.fixed_respondsWith (s : State) :
    RespondsWith s s.fixed (if s.storedCrc = s.computedCrc then 0#16 else 1#16) :=
  flagValue_bne s.storedCrc s.computedCrc ▸ State.respond_respondsWith _ _

/-- On a consistent image FIX writes no byte. -/
theorem State.fixed_img_of_consistent {s : State} (h : s.Consistent) : s.fixed.img = s.img := by
  show (if (s.storedCrc != s.computedCrc) = true then (s.storeCrc s.computedCrc).img else s.img) = s.img
  rw [bne_eq_false_iff_eq.2 h]
  rfl

theorem State.sameImage_fixed_of_consistent {s : State} (h : s.Consistent) : SameImage s s.fixed :=
  State.readByte_congr (State.fixed_img_of_consistent h) rfl

/-- On any other image FIX writes both bytes of the computed CRC. -/
theorem State.readByte_fixed_of_not_consistent {s : State} (h : ¬ s.Consistent) (a : Addr) :
    s.fixed.readByte a = (s.storeCrc s.computedCrc).readByte a :=
  (s.readByte_repair _ _ a).trans (if_pos (bne_iff_ne.2 h))

theorem State.readByte_fixed_other (s : State) {a : Addr} (hlo : a ≠ 126#8) (hhi : a ≠ 127#8) :
    s.fixed.readByte a = s.readByte a := by
  refine s.readByte_fixed_of_not_written ?_
  by_cases h : s.storedCrc = s.computedCrc <;> simp [bytesWritten, h, hlo, hhi]

/-- Settles O21: each field of `State.fixed` is the value of R170 or the old one. -/
theorem fixEffect : Obligations.FixEffect := by
  refine ⟨by decide, fun _ hop => decode_error_of_ne_encode (i := .fix) hop Instr.eq_fix_of_opcode,
    fun s n stored computed hn hstored hcomputed => ?_⟩
  obtain rfl : stored = s.storedCrc := hstored
  obtain rfl := State.eq_computedCrc hn hcomputed
  refine ⟨s.fixed, exec_fix s, fun hsame => ?_, fun hdiff => ⟨?_, ?_, fun a => s.readByte_fixed_other⟩, rfl, rfl, rfl, rfl,
    rfl, bne_iff_ne, rfl, s.fixed_respondsWith, ⟨rfl, rfl⟩, rfl, rfl⟩
  · exact ⟨State.fixed_img_of_consistent hsame, State.sameImage_fixed_of_consistent hsame⟩
  · rw [State.readByte_fixed_of_not_consistent hdiff, State.readByte_storeCrc]
    rfl
  · rw [State.readByte_fixed_of_not_consistent hdiff, State.readByte_storeCrc]
    rfl

/-- FIX leaves its own span alone, so the CRC it stores is still that of the span (42_spd_check_and_fix.md R171 b). -/
theorem State.fixed_computedCrc (s : State) : s.fixed.computedCrc = s.computedCrc := by
  obtain ⟨-, hle⟩ := spanLength_bounds s.coverage
  have hspan : ∀ a : Addr, a.toNat < spanLength s.coverage → s.fixed.readByte a = s.readByte a := fun a ha => by
    have ha126 : a.toNat < 126 := ha.trans_le hle
    exact s.readByte_fixed_other (by bv_omega) (by bv_omega)
  exact (State.coverage_computedCrc_congr hspan).2

theorem State.fixed_storedCrc (s : State) : s.fixed.storedCrc = s.computedCrc := by
  by_cases h : s.Consistent
  · have hsame := State.sameImage_fixed_of_consistent h
    calc s.fixed.storedCrc
        = s.storedCrc := by rw [State.storedCrc, hsame, hsame]; rfl
      _ = s.computedCrc := h
  · rw [State.storedCrc, State.readByte_fixed_of_not_consistent h, State.readByte_fixed_of_not_consistent h,
      State.readByte_storeCrc, State.readByte_storeCrc]
    exact highByte_append_lowByte s.computedCrc

theorem State.fixed_consistent (s : State) : s.fixed.Consistent := s.fixed_storedCrc.trans s.fixed_computedCrc.symm

/-- FIX changes some byte exactly when the two CRCs differ (42_spd_check_and_fix.md R171 f). -/
theorem State.fixed_changes_image_iff (s : State) : (∃ a, s.fixed.readByte a ≠ s.readByte a) ↔ ¬ s.Consistent := by
  rw [← not_forall, not_iff_not]
  refine ⟨fun hsame => ?_, State.sameImage_fixed_of_consistent⟩
  calc s.storedCrc
      = s.fixed.storedCrc := by rw [State.storedCrc, State.storedCrc, hsame, hsame]
    _ = s.computedCrc := s.fixed_storedCrc

/-- Settles O38: FIX makes the image consistent, and on a consistent image both CHK and FIX answer 0. -/
theorem fixLaws : Obligations.FixLaws := by
  intro s
  have hfixed := s.fixed_consistent
  have hfix := s.fixed.fixed_respondsWith
  have hchk := s.fixed.checked_respondsWith
  rw [if_pos hfixed] at hfix hchk
  refine ⟨s.fixed, _, exec_fix s, s.fixed_respondsWith, fun a => s.readByte_fixed_other,
    hfixed.trans s.fixed.computedCrc_eq, ⟨_, exec_fix _, State.fixed_img_of_consistent hfixed, hfix⟩,
    ⟨_, exec_chk _, hchk⟩, ⟨_, exec_chk s, s.checked_respondsWith⟩, ?_⟩
  rw [s.fixed_changes_image_iff]
  by_cases h : s.Consistent
  · rw [if_pos h]
    exact ⟨.inl rfl, fun _ => State.fixed_img_of_consistent h, nofun, fun hne => absurd h hne⟩
  · rw [if_neg h]
    exact ⟨.inr rfl, nofun, fun _ => h, fun _ => rfl⟩

end Sys2Proof.Machine

/-! ## Refusals along a run: what one sets, and what it leaves to the next command (60_exceptions.md R191 to R203) -/

namespace Sys2Proof.Machine

/-- Settles O11: `refuse_refusedTo` at each of the three causes, whose response words are then literals. -/
theorem refusalEffect : Obligations.RefusalEffect := fun s =>
  ⟨s.refuse_refusedTo .illegalCmd, s.refuse_refusedTo .spanRange, s.refuse_refusedTo .badReg, rfl, rfl, rfl⟩

/-- Every word, legal or not, is answered by one response and leaves the host's list (60_exceptions.md R202). -/
theorem command_completes (w : Word) (s : State) :
    ∃ t, command w s = .next t ∧ t.pending = s.pending ∧ ∃ r, t.responses = s.responses ++ [r] := by
  obtain ⟨c, -, -, hc⟩ | ⟨i, t, -, hacc, ht, hans⟩ := command_cases w s
  · exact ⟨_, hc, rfl, _, rfl⟩
  · obtain ⟨hpending, -⟩ := hans.sameHostSide
    exact ⟨t, ht, hpending, _, hans.responses_eq hacc⟩

/-- Settles O16: an idle step and a `reset()` are immediate; a command word completes by `command_completes`. -/
theorem everyStepCompletes : Obligations.EveryStepCompletes := by
  intro s
  match hp : s.pending with
  | [] => exact ⟨s, step_of_nothing_pending hp, hp, nofun⟩
  | .reset :: rest => exact ⟨_, step_of_pending_reset hp, rfl, nofun⟩
  | .command w :: rest =>
    obtain ⟨t, ht, hpending, hresp⟩ := command_completes w (s.actionTaken rest)
    exact ⟨t, (step_of_pending_command hp).trans ht, hpending, fun _ _ _ => hresp⟩

/-- A command leaves `ERR` at 0 exactly when it was 0 and the word is not refused (10_state.md R36). -/
theorem command_err_iff (w : Word) (s : State) :
    ∃ t, command w s = .next t ∧ (t.err = false ↔ s.err = false ∧ commandRefused w = false) := by
  obtain ⟨c, hrefused, -, hc⟩ | ⟨i, t, haccepted, hacc, ht, hans⟩ := command_cases w s
  · exact ⟨_, hc, by simp [hrefused]⟩
  · obtain ⟨herr, -⟩ := hans.sameErrors hacc
    exact ⟨t, ht, by simp [herr, haccepted]⟩

/-- Settles O49, by induction on the list: each word keeps `ERR` at 0 exactly when it is not refused. -/
theorem errRecordsAnyRefusal : Obligations.ErrRecordsAnyRefusal := by
  intro ws
  induction ws with
  | nil => exact fun s => ⟨s, rfl, by simp⟩
  | cons w ws ih =>
    intro s
    obtain ⟨u, hu, hfirst⟩ := command_err_iff w s
    obtain ⟨t, ht, hrest⟩ := ih u
    exact ⟨t, by simpa only [runCommands, hu] using ht, by rw [hrest, hfirst, List.forall_mem_cons, and_assoc]⟩

/-- `s` with `ERR` set, and `CAUSE` and the responses so far of any value: all that a refusal can change. -/
def State.inError (s : State) (cause : BitVec 4) (responses : List Word) : State :=
  { s with err := true, cause := cause, responses := responses }

theorem State.refuse_eq_inError (s : State) (c : Cause) :
    s.refuse c = s.inError (s.refuse c).cause (s.refuse c).responses := rfl

/-- A register other than STATUS and CAUSE shows neither `ERR` nor `CAUSE` (10_state.md R31, R37). -/
theorem State.readReg_inError (s : State) (cause : BitVec 4) (responses : List Word) {reg : BitVec 4} (hstatus : reg ≠ 3#4)
    (hcause : reg ≠ 4#4) : (s.inError cause responses).readReg reg = s.readReg reg := by
  unfold State.readReg
  split
  case h_4 => exact absurd rfl hstatus
  case h_5 => exact absurd rfl hcause
  all_goals rfl

/-- `f` answers `s` and `s` in error with the same one response, and with states that differ only in what sets the two
apart: the error is still there, with the same `CAUSE`. -/
def IgnoresErrors (f : State → Host.Outcome State Fault Refusal) (s : State) : Prop :=
  ∀ (cause : BitVec 4) (responses : List Word), ∃ t r, f s = .next t ∧ t.responses = s.responses ++ [r]
    ∧ f (s.inError cause responses) = .next (t.inError cause (responses ++ [r]))

/-- A refusal in error keeps the first cause and still answers its own (60_exceptions.md R200). -/
theorem refuse_ignoresErrors (c : Cause) (s : State) : IgnoresErrors (fun s => .next (s.refuse c)) s :=
  fun _ _ => ⟨_, _, rfl, rfl, rfl⟩

theorem execSpan_ignoresErrors (start : Addr) (len : BitVec 9) (s : State) : IgnoresErrors (execSpan start len) s := by
  intro cause responses
  by_cases h : start.toNat + len.toNat ≤ 256
  · exact ⟨_, _, execSpan_accepted s h, rfl, execSpan_accepted _ h⟩
  · rw [execSpan_refused _ (by omega), execSpan_refused _ (by omega)]
    exact refuse_ignoresErrors .spanRange s cause responses

theorem execRdr_ignoresErrors {reg : BitVec 4} (hstatus : reg ≠ 3#4) (hcause : reg ≠ 4#4) (s : State) :
    IgnoresErrors (execRdr reg) s := by
  intro cause responses
  cases hv : s.readReg reg with
  | some v =>
    have hread : (s.inError cause responses).readReg reg = some v :=
      (s.readReg_inError cause responses hstatus hcause).trans hv
    exact ⟨_, _, execRdr_named s hv, rfl, execRdr_named _ hread⟩
  | none =>
    have hreg : 4 < reg.toNat := by simpa [hv] using s.readReg_isSome reg
    rw [execRdr_unnamed _ hreg, execRdr_unnamed _ hreg]
    exact refuse_ignoresErrors .badReg s cause responses

/-- Only RDR of STATUS and of CAUSE read `ERR` or `CAUSE` (60_exceptions.md R200). -/
theorem exec_ignoresErrors {i : Instr} (hstatus : i ≠ .rdr 3#4) (hcause : i ≠ .rdr 4#4) (s : State) :
    IgnoresErrors (exec i) s := by
  cases i with
  | span start len => exact execSpan_ignoresErrors start len s
  | rdr reg => exact execRdr_ignoresErrors (fun h => hstatus (h ▸ rfl)) (fun h => hcause (h ▸ rfl)) s
  | clr => exact fun _ _ => ⟨_, _, rfl, rfl, rfl⟩
  | upd imm8 => exact fun _ _ => ⟨_, _, rfl, rfl, rfl⟩
  | chk => exact fun _ _ => ⟨_, _, exec_chk s, rfl, rfl⟩
  | fix => exact fun _ _ => ⟨_, _, exec_fix s, rfl, rfl⟩
  | wrb addr data => exact fun _ _ => ⟨_, _, exec_wrb addr data s, rfl, rfl⟩
  | rdb addr => exact fun _ _ => ⟨_, _, exec_rdb addr s, rfl, rfl⟩

theorem command_ignoresErrors {w : Word} (hstatus : decode w ≠ .ok (.rdr 3#4)) (hcause : decode w ≠ .ok (.rdr 4#4))
    (s : State) : IgnoresErrors (command w) s := by
  cases hd : decode w with
  | ok i =>
    rw [funext (command_of_decode_ok hd)]
    exact exec_ignoresErrors (fun h => hstatus (h ▸ hd)) (fun h => hcause (h ▸ hd)) s
  | error why =>
    have hrefuse : command w = fun s => .next (s.refuse .illegalCmd) := funext fun s => by simp only [command, hd]
    exact hrefuse ▸ refuse_ignoresErrors .illegalCmd s

/-- Settles O48: a refusal only puts the state in error, which the next word ignores. -/
theorem refusalDoesNotDisturbTheNextCommand : Obligations.RefusalDoesNotDisturbTheNextCommand := by
  intro s c w hstatus hcause
  obtain ⟨t, r, ht, hresp, hu⟩ := command_ignoresErrors hstatus hcause s (s.refuse c).cause (s.refuse c).responses
  rw [← s.refuse_eq_inError c] at hu
  exact ⟨t, _, r, ht, hu, hresp, rfl, rfl, fun _ => rfl, rfl, ⟨rfl, rfl, rfl, rfl, rfl, rfl⟩, ⟨rfl, rfl⟩, rfl, rfl⟩

end Sys2Proof.Machine

/-! ## Steps that run no command: an idle step and `reset()` (70_reset_and_hazards.md R220, R232) -/

namespace Sys2Proof.Machine

/-- Settles O13: `step` looks at nothing but the list of actions before it answers. -/
theorem stepWithNothingPending : Obligations.StepWithNothingPending := fun _ => step_of_nothing_pending

theorem State.reset_statusWord : State.reset.statusWord = 0#16 := by decide

/-- Settles O14: the registers and flags are those of `State.reset`, and each other part reads one field. -/
theorem resetStepEffect : Obligations.ResetStepEffect := fun _ _ hpending =>
  ⟨_, step_of_pending_reset hpending, rfl, rfl, rfl, State.reset_statusWord, rfl, rfl, rfl, rfl, rfl, rfl, fun _ => rfl,
    State.readByte_hostReset _, rfl, rfl⟩

end Sys2Proof.Machine

/-! ## What only `reset()` clears (70_reset_and_hazards.md R221) -/

namespace Sys2Proof.Machine

/-- From `s` to `t`, neither VALID, nor ERR, nor a non-zero CAUSE is cleared. -/
def KeepsSticky (s t : State) : Prop :=
  (s.valid = true → t.valid = true) ∧ (s.err = true → t.err = true) ∧ (s.cause ≠ 0#4 → t.cause ≠ 0#4)

theorem Cause.code_ne_zero (c : Cause) : c.code ≠ 0#4 := by cases c <;> decide

/-- A refusal keeps the first cause, and records its own when there is none (60_exceptions.md R191). -/
theorem State.refuse_keepsSticky (s : State) (c : Cause) : KeepsSticky s (s.refuse c) := by
  refine ⟨id, fun _ => rfl, fun hcause => ?_⟩
  rw [State.refuse_cause]
  split
  case isTrue => exact hcause
  case isFalse => exact c.code_ne_zero

/-- CHK and FIX set VALID, a refusal sets ERR and CAUSE, and no command writes them otherwise. -/
theorem ExecAnswers.keepsSticky {s t : State} {i : Instr} (h : ExecAnswers s i t) : KeepsSticky s t := by
  cases h with
  | refused c => exact s.refuse_keepsSticky c
  | checks => exact ⟨fun _ => rfl, id, id⟩
  | fixes => exact ⟨fun _ => rfl, id, id⟩
  | _ => exact ⟨id, id, id⟩

/-- Only a FIX that finds the two CRCs equal clears CHANGED (42_spd_check_and_fix.md R170). -/
theorem exec_clears_changed {i : Instr} {s t : State} (ht : exec i s = .next t) (hset : s.changed = true)
    (hclear : t.changed = false) : i = .fix ∧ s.Consistent := by
  by_cases hfix : i = .fix
  · subst hfix
    cases (exec_fix s).symm.trans ht
    exact ⟨rfl, bne_eq_false_iff_eq.1 hclear⟩
  · obtain ⟨u, hu, hans⟩ := exec_answers i s
    cases hu.symm.trans ht
    simp [hans.changed_eq hfix, hset] at hclear

/-- No word, legal or not, clears VALID, ERR or CAUSE, and only an idle FIX clears CHANGED. -/
theorem command_clears (w : Word) (s : State) :
    ∃ t, command w s = .next t ∧ KeepsSticky s t
      ∧ (s.changed = true → t.changed = false → decode w = .ok .fix ∧ s.Consistent) := by
  cases hd : decode w with
  | error why =>
    exact ⟨_, by simp only [command, hd], s.refuse_keepsSticky .illegalCmd,
      fun hset hclear => nomatch hset.symm.trans hclear⟩
  | ok i =>
    obtain ⟨t, ht, hans⟩ := exec_answers i s
    refine ⟨t, (command_of_decode_ok hd s).trans ht, hans.keepsSticky, fun hset hclear => ?_⟩
    obtain ⟨rfl, hconsistent⟩ := exec_clears_changed ht hset hclear
    exact ⟨rfl, hconsistent⟩

/-- Settles O43: an idle step changes nothing, a command word clears only what `command_clears` allows, and `reset()` clears
all four. -/
theorem onlyResetClears : Obligations.OnlyResetClears := by
  refine ⟨fun s t hstep hreset => ?_, fun s rest hp => ⟨_, step_of_pending_reset hp, rfl, rfl, rfl, rfl⟩⟩
  match hp : s.pending with
  | [] =>
    cases (step_of_nothing_pending hp).symm.trans hstep
    exact ⟨id, id, id, fun hset hclear => nomatch hset.symm.trans hclear⟩
  | .reset :: rest => exact absurd hp (hreset rest)
  | .command w :: rest =>
    obtain ⟨u, hu, ⟨hvalid, herr, hcause⟩, hchanged⟩ := command_clears w (s.actionTaken rest)
    cases ((step_of_pending_command hp).trans hu).symm.trans hstep
    refine ⟨hvalid, herr, hcause, fun hset hclear => ?_⟩
    obtain ⟨hd, hconsistent⟩ := hchanged hset hclear
    exact ⟨⟨w, rest, hp, hd⟩, hconsistent⟩

end Sys2Proof.Machine

/-! ## What CHK finds after one covered byte has changed (70_reset_and_hazards.md R226; 41_crc16_datapath.md R136 e) -/

namespace Sys2Proof.Machine

/-- Absorbing the same bytes keeps different running values different (41_crc16_datapath.md R136 e). -/
theorem foldl_crcByte_injective (bytes : List Byte) : Function.Injective fun acc => bytes.foldl crcByte acc := by
  induction bytes with
  | nil => exact Function.injective_id
  | cons b bs ih =>
    obtain ⟨hbijective, -⟩ := crcByteIsInjective
    exact ih.comp (hbijective b).injective

/-- Changing one byte of a sequence changes its CRC. -/
theorem crc16_set_ne {bytes : List Byte} {k : Nat} {v : Byte} (hk : k < bytes.length) (hv : v ≠ bytes[k]) :
    crc16 (bytes.set k v) bytes.length ≠ crc16 bytes bytes.length := by
  intro h
  have hfold : (bytes.take k ++ v :: bytes.drop (k + 1)).foldl crcByte 0#16
      = (bytes.take k ++ bytes[k] :: bytes.drop (k + 1)).foldl crcByte 0#16 := by
    rw [← List.set_eq_take_cons_drop v hk, List.getElem_cons_drop, List.take_append_drop, ← crc16_length, ← crc16_length,
      List.length_set, h]
  rw [List.foldl_append, List.foldl_append] at hfold
  obtain ⟨-, hinjective⟩ := crcByteIsInjective
  exact hv (hinjective _ (foldl_crcByte_injective _ hfold))

/-- A write inside the first `n` bytes replaces one of them. -/
theorem imageBytes_writeByte (s : State) (a : Addr) (v : Byte) {n : Nat} (hn : n ≤ 256) :
    imageBytes (s.writeByte a v) 0 n = (imageBytes s 0 n).set a.toNat v := by
  refine List.ext_getElem (by simp [imageBytes]) fun k hk _ => ?_
  have hk' : k < n := by simpa [imageBytes] using hk
  have haddr : (BitVec.ofNat 8 (0 + k)).toNat = k := by rw [BitVec.toNat_ofNat]; omega
  rw [List.getElem_set]
  simp only [imageBytes, List.getElem_ofFn]
  split
  case isTrue heq => rw [BitVec.eq_of_toNat_eq (haddr.trans heq.symm), State.readByte_writeByte_same]
  case isFalse hne =>
    refine s.readByte_writeByte_other v fun heq => hne ?_
    rw [← heq, haddr]

theorem State.coverage_writeByte {s : State} {a : Addr} {v : Byte} (h : a = 0#8 → v.getLsbD 7 = s.coverage) :
    (s.writeByte a v).coverage = s.coverage := by
  by_cases ha : a = 0#8
  · rw [← h ha, ha]
    exact congrArg (BitVec.getLsbD · 7) (s.readByte_writeByte_same 0#8 v)
  · exact congrArg (BitVec.getLsbD · 7) (s.readByte_writeByte_other v (Ne.symm ha))

/-- Another value for a byte of the span, the span itself kept, changes the computed CRC. -/
theorem State.computedCrc_writeByte_ne {s : State} {a : Addr} {v : Byte} (ha : a.toNat < spanLength s.coverage)
    (hv : v ≠ s.readByte a) (hcov : a = 0#8 → v.getLsbD 7 = s.coverage) :
    (s.writeByte a v).computedCrc ≠ s.computedCrc := by
  obtain ⟨-, hle⟩ := spanLength_bounds s.coverage
  have hlen : (imageBytes s 0 (spanLength s.coverage)).length = spanLength s.coverage := List.length_ofFn
  have hbyte : (imageBytes s 0 (spanLength s.coverage))[a.toNat] = s.readByte a := by simp [imageBytes]
  have hne := crc16_set_ne (hlen.symm ▸ ha) (hbyte.symm ▸ hv)
  rwa [hlen, ← imageBytes_writeByte s a v (by omega), ← s.computedCrc_eq, ← State.coverage_writeByte hcov,
    ← State.computedCrc_eq] at hne

/-- A byte of the span is none of the stored CRC's. -/
theorem State.storedCrc_writeByte {s : State} {a : Addr} (v : Byte) (ha : a.toNat < spanLength s.coverage) :
    (s.writeByte a v).storedCrc = s.storedCrc := by
  obtain ⟨-, hle⟩ := spanLength_bounds s.coverage
  rw [State.storedCrc, s.readByte_writeByte_other v (by bv_omega), s.readByte_writeByte_other v (by bv_omega)]
  rfl

/-- The write changes the computed CRC and not the stored one, which matched before. -/
theorem State.not_consistent_writeByte {s : State} {a : Addr} {v : Byte} (hs : s.Consistent)
    (ha : a.toNat < spanLength s.coverage) (hv : v ≠ s.readByte a) (hcov : a = 0#8 → v.getLsbD 7 = s.coverage) :
    ¬ (s.writeByte a v).Consistent := by
  rw [State.Consistent, State.storedCrc_writeByte v ha, hs]
  exact (State.computedCrc_writeByte_ne ha hv hcov).symm

/-- Settles O39: CHK compares the two CRCs that the write has set apart. -/
theorem changedCoveredByteIsDetected : Obligations.ChangedCoveredByteIsDetected := by
  intro s a v hs ha hv hcov
  have hdiff : ¬ ((s.writeByte a v).respond 0x0000#16).Consistent := State.not_consistent_writeByte hs ha hv hcov
  have hresp := ((s.writeByte a v).respond 0x0000#16).checked_respondsWith
  rw [if_neg hdiff] at hresp
  exact ⟨_, _, exec_wrb a v s, exec_chk _, bne_iff_ne.2 hdiff, hresp⟩

end Sys2Proof.Machine

/-! ## Commands do not depend on the host's list or on bytes they do not read (10_state.md R27; 70_reset_and_hazards.md R223,
R233) -/

namespace Sys2Proof.Machine

/-- `s` with the two fields that no command writes: the reset count, which picks the bytes never written, and the host's
list (log entries 2 and 3). -/
def State.withHostSide (s : State) (resets : Nat) (pending : List HostAction) : State :=
  { s with resets := resets, pending := pending }

/-- `s` and `t` agree on every byte that the command reads from `s`. -/
def SameReads (i : Instr) (s t : State) : Prop := ∀ a ∈ bytesRead i s, t.readByte a = s.readByte a

theorem SameReads.spanBytes_eq {s t : State} {start : Addr} {len : BitVec 9} (h : SameReads (.span start len) s t)
    (hacc : start.toNat + len.toNat ≤ 256) :
    t.spanBytes start.toNat len.toNat = s.spanBytes start.toNat len.toNat := by
  refine List.map_congr_left fun k hk => h _ ?_
  simpa only [bytesRead, if_pos hacc] using List.mem_map_of_mem hk

/-- What CHK and FIX derive from the image is a function of the bytes they read (42_spd_check_and_fix.md R161 to R165). -/
theorem SameReads.check_values_eq {s t : State} (h : SameReads .chk s t) :
    t.coverage = s.coverage ∧ t.storedCrc = s.storedCrc ∧ t.computedCrc = s.computedCrc := by
  have hspan : ∀ a : Addr, a.toNat < spanLength s.coverage → t.readByte a = s.readByte a := fun a ha => by
    have hmem : a ∈ coveredAddrs s := List.mem_map.2 ⟨a.toNat, List.mem_range.2 ha, BitVec.ofNat_toNat ..⟩
    exact h a (by simp [bytesRead, hmem])
  obtain ⟨hcov, hcomputed⟩ := State.coverage_computedCrc_congr hspan
  refine ⟨hcov, ?_, hcomputed⟩
  rw [State.storedCrc, h 127#8 (by simp [bytesRead]), h 126#8 (by simp [bytesRead])]
  rfl

section

variable {s : State} {n : Nat} {pending : List HostAction}

theorem SameReads.checked_withHostSide (h : SameReads .chk s (s.withHostSide n pending)) :
    (s.withHostSide n pending).checked = s.checked.withHostSide n pending := by
  obtain ⟨hcov, hstored, hcomputed⟩ := h.check_values_eq
  rw [State.checked, hcov, hstored, hcomputed]
  rfl

theorem SameReads.fixed_withHostSide (h : SameReads .fix s (s.withHostSide n pending)) :
    (s.withHostSide n pending).fixed = s.fixed.withHostSide n pending := by
  have hchk : SameReads .chk s (s.withHostSide n pending) := h
  obtain ⟨hcov, hstored, hcomputed⟩ := hchk.check_values_eq
  rw [State.fixed, hcov, hstored, hcomputed]
  rfl

/-- Where the bytes it reads are the same, a command does the same whatever the host's list and the reset count. -/
theorem exec_withHostSide {i : Instr} (h : SameReads i s (s.withHostSide n pending)) :
    ∃ t, exec i s = .next t ∧ exec i (s.withHostSide n pending) = .next (t.withHostSide n pending) := by
  cases i with
  | clr => exact ⟨_, rfl, rfl⟩
  | upd imm8 => exact ⟨_, rfl, rfl⟩
  | span start len =>
    by_cases hacc : start.toNat + len.toNat ≤ 256
    · refine ⟨_, execSpan_accepted s hacc, (execSpan_accepted _ hacc).trans ?_⟩
      rw [h.spanBytes_eq hacc]
      rfl
    · exact ⟨_, execSpan_refused s (by omega), execSpan_refused _ (by omega)⟩
  | chk => exact ⟨_, exec_chk s, (exec_chk _).trans (congrArg _ h.checked_withHostSide)⟩
  | fix => exact ⟨_, exec_fix s, (exec_fix _).trans (congrArg _ h.fixed_withHostSide)⟩
  | wrb addr data => exact ⟨_, rfl, rfl⟩
  | rdb addr =>
    refine ⟨_, exec_rdb addr s, (exec_rdb addr _).trans ?_⟩
    rw [h addr (by simp [bytesRead])]
    rfl
  | rdr reg =>
    have hread : (s.withHostSide n pending).readReg reg = s.readReg reg := rfl
    cases hv : s.readReg reg with
    | some v => exact ⟨_, execRdr_named s hv, execRdr_named _ (hread.trans hv)⟩
    | none =>
      have hreg : 4 < reg.toNat := by simpa [hv] using s.readReg_isSome reg
      exact ⟨_, execRdr_unnamed s hreg, execRdr_unnamed _ hreg⟩

end

theorem exec_sameHostSide {i : Instr} {s t : State} (h : exec i s = .next t) : SameHostSide s t := by
  obtain ⟨u, hu, hans⟩ := exec_answers i s
  cases hu.symm.trans h
  exact hans.sameHostSide

/-- A byte written since the last reset does not depend on the image after reset (log entry 1). -/
theorem State.readByte_withHostSide_of_written {s : State} {a : Addr} (h : s.written a = true) (n : Nat)
    (pending : List HostAction) : (s.withHostSide n pending).readByte a = s.readByte a := by
  obtain ⟨v, hv⟩ := Option.isSome_iff_exists.1 h
  simp [State.readByte, State.withHostSide, hv]

/-- Settles O45: the bytes the command reads are written ones, and it leaves the host's list. -/
theorem definedReadsIgnoreTheResetImage : Obligations.DefinedReadsIgnoreTheResetImage := by
  intro i s n hdefined
  have hreads : SameReads i s (s.withHostSide n s.pending) := fun a ha =>
    State.readByte_withHostSide_of_written (hdefined a ha) n s.pending
  obtain ⟨t, ht, hu⟩ := exec_withHostSide hreads
  obtain ⟨hpending, -⟩ := exec_sameHostSide ht
  have hself : t.withHostSide n s.pending = { t with resets := n } := congrArg (t.withHostSide n) hpending.symm
  exact ⟨t, ht, hu.trans (congrArg _ hself)⟩

/-- No command looks at the actions the host will issue later (10_state.md R27). -/
theorem exec_actionTaken (i : Instr) (s : State) (rest : List HostAction) :
    ∃ t, exec i s = .next t ∧ exec i (s.actionTaken rest) = .next (t.actionTaken rest) := by
  obtain ⟨t, ht, hu⟩ := exec_withHostSide (i := i) (s := s) (n := s.resets) (pending := rest) fun _ _ => rfl
  obtain ⟨-, hresets⟩ := exec_sameHostSide ht
  have hself : t.withHostSide s.resets rest = t.actionTaken rest := congrArg (t.withHostSide · rest) hresets.symm
  exact ⟨t, ht, hu.trans (congrArg _ hself)⟩

theorem command_actionTaken {w : Word} {s t : State} (h : command w s = .next t) (rest : List HostAction) :
    command w (s.actionTaken rest) = .next (t.actionTaken rest) := by
  cases hd : decode w with
  | error why =>
    simp only [command, hd] at h ⊢
    cases h
    rfl
  | ok i =>
    obtain ⟨u, hu, hrest⟩ := exec_actionTaken i s rest
    cases ((command_of_decode_ok hd s).trans hu).symm.trans h
    exact (command_of_decode_ok hd _).trans hrest

/-- A run whose first step completes goes on from the state it answers. -/
theorem core_run_succ {s t : State} (h : step s = .next t) (k : Nat) :
    Host.Core.run core (k + 1) s = Host.Core.run core k t := by
  have hcore : core.step s = .next t := h
  simp only [Host.Core.run, hcore]

/-- Settles O51, by induction on the list: each step issues the first word, and what it does is independent of the words
behind it. -/
theorem stepsRunTheHostsList : Obligations.StepsRunTheHostsList := by
  intro ws
  induction ws with
  | nil => exact fun s => ⟨_, rfl, rfl, rfl, rfl⟩
  | cons w ws ih =>
    intro s
    obtain ⟨u, hu, hpending, r, hresp⟩ := command_completes w (s.actionTaken [])
    obtain ⟨t, hrun, hcommands, hempty, hlength⟩ := ih u
    have hstep : step (s.actionTaken (.command w :: ws.map .command)) = .next (u.actionTaken (ws.map .command)) :=
      (step_of_pending_command rfl).trans (command_actionTaken hu _)
    have hu_self : u.actionTaken [] = u := congrArg u.actionTaken hpending.symm
    refine ⟨t, (core_run_succ hstep ws.length).trans hrun, ?_, hempty, ?_⟩
    · show runCommands (w :: ws) (s.actionTaken []) = .next t
      rw [runCommands, hu, ← hu_self]
      exact hcommands
    · rw [hlength, hresp, List.length_append, List.length_cons]
      exact Nat.add_right_comm ..

end Sys2Proof.Machine
